-- ==== Sys2Proof/Word.lean ====
section
/-! DEFINITION. The word types of the model. -/

namespace Sys2Proof

/-- A 32-bit quantity: ID_DFR0 (10_state.md R10), a general register (R35), an instruction word (30_encoding.md R54). -/
abbrev Word := BitVec 32

/-- A 4-bit quantity: one field of ID_DFR0 (10_state.md R13), or `cond`, `coproc`, `CRn`, `CRm`, `Rt` of an
instruction (30_encoding.md R51, R52). -/
abbrev Nibble := BitVec 4

/-- A one-bit control field, compared with `'1'` by the access rule (10_state.md R37). -/
abbrev Bit := BitVec 1

end Sys2Proof
end

