-- ==== Sys2Proof/Config.lean ====
section
/-! DEFINITION. What an implementation fixes: the configuration record `cfg` (00_scope.md section 4). It is a
PARAMETER of the spec, so the machine carries it as data (a field of `State` that no step writes) and a statement over
all states is a statement over all configurations. -/

namespace Sys2Proof

/-- A Security state (00_scope.md section 4, `cfg.NOEL3_STATE`). -/
inductive SecurityState where
  | secure
  | nonSecure
  deriving DecidableEq, Repr

/-- The configuration record, field names as in 00_scope.md section 4; the last two fields are the model's own. -/
structure Config where
  /-- The value of ID_DFR0, IMPLEMENTATION DEFINED within `Permitted` (10_state.md R10, R32). -/
  ID_DFR0 : Word
  /-- N of the Armv8.N the implementation complies with (92_eei_decisions.md D4). -/
  V8_MINOR : Nat
  /-- Whether the hardware is an Armv8-A implementation (D17 fixes it to true; see `admitted`). -/
  ARMV8A : Bool
  /-- Whether EL3 is implemented (10_state.md R27). -/
  HAVE_EL3 : Bool
  /-- The implemented Security state, read only without EL3 (10_state.md R27). -/
  NOEL3_STATE : SecurityState
  FEAT_AA32EL1 : Bool
  FEAT_AA32EL2 : Bool
  FEAT_AA64EL2 : Bool
  FEAT_TRF : Bool
  FEAT_ETMv4 : Bool
  FEAT_ETE : Bool
  FEAT_PMUv3 : Bool
  FEAT_PMUv3p1 : Bool
  FEAT_PMUv3p4 : Bool
  FEAT_PMUv3p5 : Bool
  FEAT_PMUv3p7 : Bool
  FEAT_PMUv3p8 : Bool
  FEAT_PMUv3p9 : Bool
  FEAT_Debugv8p1 : Bool
  FEAT_Debugv8p2 : Bool
  FEAT_Debugv8p4 : Bool
  FEAT_Debugv8p8 : Bool
  FEAT_Debugv8p9 : Bool
  /-- Whether a read whose condition fails still raises `Undefined` where it would have raised it: left to the
  implementation (40_mrc_id_dfr0.md R65, GK10). The model's own field (log entry 6). -/
  failedConditionUndefined : Bool
  /-- The same for the two EL2 traps (40_mrc_id_dfr0.md R65, GK10). The model's own field (log entry 6). -/
  failedConditionTraps : Bool
  deriving DecidableEq, Repr

/-- The spec's configuration CFG_A (95_test_vectors.md section 2.2): Armv8.0 with EL3 and PMUv3. The state after reset
carries it (DESIGN CHOICE, log entry 2). Three values are not that row's: NOEL3_STATE, for which it says "(unused)", is
nonSecure (DESIGN CHOICE, log entry 2; not read while HAVE_EL3 is true), and the two fields of the model's own are false. -/
def Config.cfgA : Config :=
  { ID_DFR0 := 0x03000066#32, V8_MINOR := 0, ARMV8A := true, HAVE_EL3 := true, NOEL3_STATE := .nonSecure
    FEAT_AA32EL1 := true, FEAT_AA32EL2 := true, FEAT_AA64EL2 := true
    FEAT_TRF := false, FEAT_ETMv4 := false, FEAT_ETE := false
    FEAT_PMUv3 := true, FEAT_PMUv3p1 := false, FEAT_PMUv3p4 := false, FEAT_PMUv3p5 := false
    FEAT_PMUv3p7 := false, FEAT_PMUv3p8 := false, FEAT_PMUv3p9 := false
    FEAT_Debugv8p1 := false, FEAT_Debugv8p2 := false, FEAT_Debugv8p4 := false, FEAT_Debugv8p8 := false
    FEAT_Debugv8p9 := false
    failedConditionUndefined := false, failedConditionTraps := false }

end Sys2Proof
end

