-- ==== Sys2Proof/Syntax.lean ====
section
/-! DEFINITION. The instructions: one constructor per row of spec/opcode_table.json. -/

namespace Sys2Proof

/-- The instruction set an instruction word belongs to (30_encoding.md R52, R53, R54). -/
inductive InstrSet where
  | a32
  | t32
  deriving DecidableEq, Repr

/-- The condition `{<c>}` of the syntax line (30_encoding.md R50), by the value of `cond`, bits [31:28] of the A32
form (R52): 0b0000 to 0b1110 in this order. The value 0b1111 is not a condition of this instruction (R52).
PRESUMED (log entry 5): the spec names only AL (0b1110) and NE (0b0001); the other names are the family's. -/
inductive Cond where
  | eq | ne | cs | cc | mi | pl | vs | vc | hi | ls | ge | lt | gt | le | al
  deriving DecidableEq, Repr

/-- The one instruction in scope, the MRC that reads ID_DFR0 (40_mrc_id_dfr0.md R60), in its two encodings. The
destination is kept as the four bits `<Rt>` the instruction carries; which of them are admitted is checked by
`Instr.wellFormed` and again when the instruction executes (R64). -/
inductive Instr where
  /-- Row 1, A32 (30_encoding.md R52): `MRC{<c>} p15, 0, <Rt>, c0, c1, 2`. -/
  | mrcA32 (cond : Cond) (rt : Nibble)
  /-- Row 2, T32 (30_encoding.md R53): the same read; a condition, if any, comes from an enclosing IT block. -/
  | mrcT32 (rt : Nibble)
  deriving DecidableEq, Repr

/-- The instruction set of a form. -/
def Instr.instrSet : Instr → InstrSet
  | .mrcA32 _ _ => .a32
  | .mrcT32 _ => .t32

/-- The four bits `<Rt>` of a form. -/
def Instr.rt : Instr → Nibble
  | .mrcA32 _ rt => rt
  | .mrcT32 rt => rt

end Sys2Proof
end

