-- ==== Sys2Proof/WellFormed.lean ====
section
/-! DEFINITION. Which instruction terms the spec gives a meaning. -/

namespace Sys2Proof

/-- The destinations the spec admits (40_mrc_id_dfr0.md R64): 0 to 14 in A32; 0 to 12 and 14 in T32. -/
def Instr.wellFormed : Instr → Bool
  | .mrcA32 _ rt => rt != 15#4
  | .mrcT32 rt => rt != 13#4 && rt != 15#4

end Sys2Proof
end

