-- ==== Sys2Proof/Decode.lean ====
section
/-! DEFINITION. Decoding of instruction words, the encoder beside it, and the assembler form of the syntax line.
The decoder takes 32-bit NUMBERS, as the spec gives them (30_encoding.md R52, R53, R54; 92_eei_decisions.md D9):
the byte order of a fetch is not in the spec. -/

namespace Sys2Proof

/-- Why a word is not this instruction (30_encoding.md R55, R56; 40_mrc_id_dfr0.md R64). -/
inductive DecodeError where
  /-- The word is not a coprocessor register transfer of the asked instruction set (R52, R53). -/
  | notRegisterTransfer
  /-- A register transfer whose five selector fields do not name ID_DFR0 (R51). -/
  | otherRegister
  /-- The selector fields name ID_DFR0 and bit 20 is 0: an MCR, which the spec gives no meaning (R55, D12). -/
  | writeNotGiven
  /-- A32 with `cond` = 0b1111 (R52). -/
  | condReserved
  /-- `Rt` = 15, or `Rt` = 13 in T32 (R64, D6). -/
  | destinationNotAdmitted
  deriving DecidableEq, Repr

/-- The (coproc, opc1, CRn, CRm, opc2) tuple of the System register encoding space (20_memory.md R41, 30_encoding.md
R51), with the widths of R51's literals. -/
structure Selector where
  coproc : BitVec 4
  opc1 : BitVec 3
  crn : BitVec 4
  crm : BitVec 4
  opc2 : BitVec 3
  deriving DecidableEq, Repr

/-- The tuple that selects ID_DFR0 (30_encoding.md R51). -/
def idDfr0Selector : Selector :=
  { coproc := 0b1111#4, opc1 := 0b000#3, crn := 0b0000#4, crm := 0b0001#4, opc2 := 0b010#3 }

/-- A field at its place in a word: its bit 0 at bit `pos`. Concatenation (00_scope.md section 5, `a : b`) is the
bitwise or of fields at disjoint places. -/
def placeAt {n : Nat} (pos : Nat) (f : BitVec n) : Word := f.setWidth 32 <<< pos

/-- The fields of the 32-bit coprocessor register transfer format, from the high bits down (30_encoding.md R52; R53
with the first halfword as the high 16 bits). -/
structure MrcFields where
  /-- [31:28]: `cond` in A32, 0b1110 in T32. -/
  top : BitVec 4
  /-- [27:24]: 0b1110. -/
  op : BitVec 4
  /-- [23:21]. -/
  opc1 : BitVec 3
  /-- [20]: 1 for MRC (a read), 0 for MCR (a write). -/
  read : BitVec 1
  /-- [19:16]. -/
  crn : BitVec 4
  /-- [15:12]. -/
  rt : BitVec 4
  /-- [11:8]. -/
  coproc : BitVec 4
  /-- [7:5]. -/
  opc2 : BitVec 3
  /-- [4]: 1. -/
  one : BitVec 1
  /-- [3:0]. -/
  crm : BitVec 4
  deriving DecidableEq, Repr

/-- The fields of a word (30_encoding.md R52, R53). -/
def MrcFields.ofWord (w : Word) : MrcFields :=
  { top := w.extractLsb' 28 4, op := w.extractLsb' 24 4, opc1 := w.extractLsb' 21 3, read := w.extractLsb' 20 1
    crn := w.extractLsb' 16 4, rt := w.extractLsb' 12 4, coproc := w.extractLsb' 8 4, opc2 := w.extractLsb' 5 3
    one := w.extractLsb' 4 1, crm := w.extractLsb' 0 4 }

/-- The word with these fields (30_encoding.md R52, R53). -/
def MrcFields.toWord (f : MrcFields) : Word :=
  placeAt 28 f.top ||| placeAt 24 f.op ||| placeAt 21 f.opc1 ||| placeAt 20 f.read ||| placeAt 16 f.crn
    ||| placeAt 12 f.rt ||| placeAt 8 f.coproc ||| placeAt 5 f.opc2 ||| placeAt 4 f.one ||| placeAt 0 f.crm

/-- The selector tuple among a word's fields. -/
def MrcFields.selector (f : MrcFields) : Selector :=
  { coproc := f.coproc, opc1 := f.opc1, crn := f.crn, crm := f.crm, opc2 := f.opc2 }

/-- The condition a `cond` field names (30_encoding.md R52: 0b1111 is none; log entry 5). -/
def Cond.ofBits (b : Nibble) : Option Cond :=
  match b.toNat with
  | 0 => some .eq | 1 => some .ne | 2 => some .cs | 3 => some .cc
  | 4 => some .mi | 5 => some .pl | 6 => some .vs | 7 => some .vc
  | 8 => some .hi | 9 => some .ls | 10 => some .ge | 11 => some .lt
  | 12 => some .gt | 13 => some .le | 14 => some .al
  | _ => none

/-- The `cond` field of a condition. -/
def Cond.toBits : Cond → Nibble
  | .eq => 0 | .ne => 1 | .cs => 2 | .cc => 3 | .mi => 4 | .pl => 5 | .vs => 6 | .vc => 7
  | .hi => 8 | .ls => 9 | .ge => 10 | .lt => 11 | .gt => 12 | .le => 13 | .al => 14

/-- Decoding of a word's fields in one instruction set (30_encoding.md R51 to R56, 40_mrc_id_dfr0.md R64). -/
def decodeFields (iset : InstrSet) (f : MrcFields) : Except DecodeError Instr :=
  if f.op ≠ 0b1110#4 ∨ f.one ≠ 1#1 then .error .notRegisterTransfer
  else if f.selector ≠ idDfr0Selector then .error .otherRegister
  else if f.read ≠ 1#1 then .error .writeNotGiven
  else match iset with
    | .a32 =>
      match Cond.ofBits f.top with
      | none => .error .condReserved
      | some c => if (Instr.mrcA32 c f.rt).wellFormed then .ok (.mrcA32 c f.rt) else .error .destinationNotAdmitted
    | .t32 =>
      if f.top ≠ 0b1110#4 then .error .notRegisterTransfer
      else if (Instr.mrcT32 f.rt).wellFormed then .ok (.mrcT32 f.rt) else .error .destinationNotAdmitted

/-- The decoder: total on every 32-bit word, rejecting by name. Which instruction set applies is state of the
processing element (30_encoding.md R54). -/
def decode (iset : InstrSet) (w : Word) : Except DecodeError Instr :=
  decodeFields iset (MrcFields.ofWord w)

/-- The fields of an ID_DFR0 read (30_encoding.md R51, R52, R53). -/
def idDfr0ReadFields (top rt : Nibble) : MrcFields :=
  { top := top, op := 0b1110#4, opc1 := idDfr0Selector.opc1, read := 1#1, crn := idDfr0Selector.crn, rt := rt
    coproc := idDfr0Selector.coproc, opc2 := idDfr0Selector.opc2, one := 1#1, crm := idDfr0Selector.crm }

/-- The fields of an instruction's word (30_encoding.md R52, R53). -/
def encodeFields : Instr → MrcFields
  | .mrcA32 c rt => idDfr0ReadFields c.toBits rt
  | .mrcT32 rt => idDfr0ReadFields 0b1110#4 rt

/-- The encoder: the word of an instruction, in its own instruction set (30_encoding.md R52, R53). -/
def encode (i : Instr) : Word := (encodeFields i).toWord

/-! ### The words of the opcode table -/

/-- The 32-bit word of an instruction given by its `nbits` low bits, numbered as spec/opcode_table.json numbers
them: one 32-bit number, the first T32 halfword in bits [31:16] (the table's `format` and `fixed` columns). -/
def tableWord (nbits w : Nat) : Word := BitVec.ofNat 32 (w % 2 ^ nbits)

/-- The instruction set under which a table word is read. The word 0xEE10tF51 is the T32 row's word and also the
A32 row's word with condition AL (30_encoding.md R52, R53); the model reads it as the T32 row's, and every other
word as A32 (DESIGN CHOICE, log entry 10). -/
def tableInstrSet (w : Word) : InstrSet :=
  match decode .t32 w with
  | .ok _ => .t32
  | .error _ => .a32

/-- The instruction the decoder reads from a table word; no instruction is longer than 32 bits (30_encoding.md R54). -/
def decodeTableWord (nbits w : Nat) : Option Instr :=
  if nbits ≤ 32 then (decode (tableInstrSet (tableWord nbits w)) (tableWord nbits w)).toOption else none

/-! ### The assembler syntax line -/

/-- The qualifier `{<q>}`: `.N` or `.W` (30_encoding.md R50, GK17). -/
inductive Qualifier where
  | narrow
  | wide
  deriving DecidableEq, Repr

/-- An instance of the syntax line `MRC` with `<c>`, `<q>`, `<coproc>`, `<opc1>`, `<Rt>`, `<CRn>`, `<CRm>`, `<opc2>`
(30_encoding.md R50); the optional parts are options. -/
structure MrcAsm where
  cond : Option Cond
  qualifier : Option Qualifier
  coproc : BitVec 4
  opc1 : BitVec 3
  rt : Nibble
  crn : BitVec 4
  crm : BitVec 4
  opc2 : Option (BitVec 3)
  deriving DecidableEq, Repr

/-- The selector an assembler line names. An omitted `<opc2>` is 0 (GK17), so it names another register
(90_conflicts.md C4). -/
def MrcAsm.selector (a : MrcAsm) : Selector :=
  { coproc := a.coproc, opc1 := a.opc1, crn := a.crn, crm := a.crm, opc2 := a.opc2.getD 0#3 }

/-- The instruction an assembler line stands for, where it is the ID_DFR0 read with an admitted destination
(30_encoding.md R50, R51). An omitted `<c>` is AL; the T32 encoding has no condition field (R53); `<q>` changes no
bit (log entry 11). -/
def assemble (iset : InstrSet) (a : MrcAsm) : Option Instr :=
  if a.selector = idDfr0Selector then
    match iset with
    | .a32 => if (Instr.mrcA32 (a.cond.getD .al) a.rt).wellFormed then some (.mrcA32 (a.cond.getD .al) a.rt) else none
    | .t32 => if (Instr.mrcT32 a.rt).wellFormed then some (.mrcT32 a.rt) else none
  else none

end Sys2Proof
end

