-- ==== Sys2Proof/Machine/State.lean ====
section
/-! DEFINITION. The state of the machine, the ways a step can stop, and the state after reset. -/

namespace Sys2Proof.Machine

/-- The values of `PSTATE.EL` (10_state.md R36). -/
inductive ExceptionLevel where
  | EL0 | EL1 | EL2 | EL3
  deriving DecidableEq, Repr

/-- The context record `ctx` (00_scope.md section 4; 10_state.md R36, R37, R38): the inputs the access rule reads.
No relation is assumed among them or between them and the configuration (92_eei_decisions.md D22). -/
structure Context where
  /-- `PSTATE.EL` (R36). -/
  EL : ExceptionLevel
  /-- `EL2Enabled()` (R38). -/
  EL2Enabled : Bool
  /-- `ELUsingAArch32(EL2)` (R38). -/
  EL2UsingAArch32 : Bool
  /-- `HSTR_EL2.T0` (R37). -/
  HSTR_EL2_T0 : Bit
  /-- `HSTR.T0` (R37). -/
  HSTR_T0 : Bit
  /-- `HCR_EL2.TID3` (R37). -/
  HCR_EL2_TID3 : Bit
  /-- `HCR.TID3` (R37). -/
  HCR_TID3 : Bit
  deriving DecidableEq, Repr

/-- The condition flags a condition is evaluated on. PRESUMED (log entry 5): the spec mentions the condition flags only
in passing (40_mrc_id_dfr0.md R64) and gives no instruction that writes them. -/
structure Flags where
  N : Bool
  Z : Bool
  C : Bool
  V : Bool
  deriving DecidableEq, Repr

/-- The whole state. -/
structure State where
  /-- The configuration, ID_DFR0 among it; no step writes it (10_state.md R14, R34). -/
  cfg : Config
  /-- The context of the access rule; no step writes it (10_state.md R36, R37). -/
  ctx : Context
  /-- The general registers `x[0..14]` (10_state.md R35, 92_eei_decisions.md D7). -/
  x : Vector Word 15
  /-- The condition flags (log entry 5); no step writes them (40_mrc_id_dfr0.md R60, "Flags written: none"). -/
  flags : Flags
  /-- The current instruction set (30_encoding.md R54: "a piece of state"). -/
  iset : InstrSet
  /-- The conditions an enclosing IT block gives to the next T32 instructions, in order; empty outside an IT block
  (30_encoding.md R53; log entry 7). -/
  itBlock : List Cond
  /-- The enclosing machine's program counter (92_eei_decisions.md D8, GK12; log entry 8). -/
  pc : Word
  /-- The instruction words the enclosing machine's fetch supplies, by address: addresses strictly rising
  (92_eei_decisions.md D9; log entry 9). -/
  supply : List (Nat × Word)
  deriving DecidableEq, Repr

/-- The three raising outcomes of the access rule (00_scope.md section 6, 60_exceptions.md R70 to R73). What each does
after it is raised is not in the spec (R75, D5), so each ends the run: safe. -/
inductive Fault where
  /-- `UNDEFINED;` raised by the read when FEAT_AA32EL1 is not implemented or at EL0 (R70). Safe. -/
  | undefined
  /-- `AArch64.AArch32SystemAccessTrap(target, code);` raised by the read at EL1 with EL2 using AArch64 (R71);
  `target` is EL2 and `code` 0x03. Safe. -/
  | trapToAArch64 (target : ExceptionLevel) (code : Nat)
  /-- `AArch32.TakeHypTrapException(code);` raised by the read at EL1 with EL2 using AArch32 (R72); `code` is 0x03.
  Safe. -/
  | hypTrap (code : Nat)
  deriving DecidableEq, Repr

/-- Why the model gives a state or an instruction no meaning. -/
inductive Refusal where
  /-- Raised by `exec`'s arm of an instruction that has no meaning yet; no arm raises it now. Safe. -/
  | notModelled (mnemonic : String)
  /-- Raised by a read whose destination the spec refuses: `Rt` = 15, or 13 in T32 (40_mrc_id_dfr0.md R64, D6). Safe. -/
  | destinationNotAdmitted
  /-- Raised by the step on a word that is not the ID_DFR0 read (30_encoding.md R55, R56, D12). Safe. -/
  | notIdDfr0Read (reason : DecodeError)
  /-- Raised by the step where the enclosing machine supplies no instruction word at the program counter
  (92_eei_decisions.md D9; log entry 9). Safe. -/
  | noInstructionSupplied
  /-- Raised by the step when `cfg.ARMV8A` is false (92_eei_decisions.md D17). Safe. -/
  | notArmv8A
  /-- Raised by the step when `Permitted` fails of the configuration (10_state.md R32, D2, D16). Safe. -/
  | configurationNotPermitted
  deriving DecidableEq, Repr

/-- The state right after reset. The spec gives no reset value but that ID_DFR0 holds `cfg.ID_DFR0`, a parameter
(10_state.md R34, 70_reset_and_hazards.md R80); every other value here is the model's (log entries 2, 3, 4). -/
def State.reset : State :=
  { cfg := Config.cfgA
    ctx := { EL := .EL3, EL2Enabled := false, EL2UsingAArch32 := false
             HSTR_EL2_T0 := 0#1, HSTR_T0 := 0#1, HCR_EL2_TID3 := 0#1, HCR_TID3 := 0#1 }
    x := Vector.replicate 15 0#32
    flags := { N := false, Z := false, C := false, V := false }
    iset := .a32
    itBlock := []
    pc := 0#32
    supply := [] }

end Sys2Proof.Machine
end

