-- ==== Sys2Proof/Machine/Flags.lean ====
section
/-! DEFINITION. When a condition passes. The spec gives the condition a place (30_encoding.md R50, R52; R53 for an IT
block) and not its table: the table is the family's (PRESUMED, log entry 5). No instruction in scope writes a flag
(40_mrc_id_dfr0.md R60, "Flags written: none"). -/

namespace Sys2Proof.Machine

/-- Whether a condition holds of the flags. -/
def conditionHolds (c : Cond) (f : Flags) : Bool :=
  match c with
  | .eq => f.Z
  | .ne => !f.Z
  | .cs => f.C
  | .cc => !f.C
  | .mi => f.N
  | .pl => !f.N
  | .vs => f.V
  | .vc => !f.V
  | .hi => f.C && !f.Z
  | .ls => !f.C || f.Z
  | .ge => f.N == f.V
  | .lt => f.N != f.V
  | .gt => !f.Z && f.N == f.V
  | .le => f.Z || f.N != f.V
  | .al => true

/-- The condition the next T32 instruction is under: the first one of the IT block, none outside a block (R53). -/
def State.itCondition (s : State) : Cond :=
  match s.itBlock with
  | [] => .al
  | c :: _ => c

/-- The condition an instruction is under (40_mrc_id_dfr0.md R65): the `cond` field in A32, the IT block's in T32. -/
def State.conditionOf (s : State) (i : Instr) : Cond :=
  match i with
  | .mrcA32 c _ => c
  | .mrcT32 _ => s.itCondition

/-- Whether the condition of an instruction passes. -/
def State.conditionPasses (s : State) (i : Instr) : Bool :=
  conditionHolds (s.conditionOf i) s.flags

end Sys2Proof.Machine
end

