-- ==== Sys2Proof/Machine/IdDfr0.lean ====
section
/-! DEFINITION. The register ID_DFR0: its eight fields, what their values mean, and which values an implementation may
hold (10_state.md R10 to R34). -/

namespace Sys2Proof.Machine.IdDfr0

/-! ### The fields (10_state.md R13, 40_mrc_id_dfr0.md R66) -/

/-- TraceFilt, bits [31:28]. -/
def TraceFilt (v : Word) : Nibble := v.extractLsb' 28 4
/-- PerfMon, bits [27:24]. -/
def PerfMon (v : Word) : Nibble := v.extractLsb' 24 4
/-- MProfDbg, bits [23:20]. -/
def MProfDbg (v : Word) : Nibble := v.extractLsb' 20 4
/-- MMapTrc, bits [19:16]. -/
def MMapTrc (v : Word) : Nibble := v.extractLsb' 16 4
/-- CopTrc, bits [15:12]. -/
def CopTrc (v : Word) : Nibble := v.extractLsb' 12 4
/-- MMapDbg, bits [11:8]. -/
def MMapDbg (v : Word) : Nibble := v.extractLsb' 8 4
/-- CopSDbg, bits [7:4]. -/
def CopSDbg (v : Word) : Nibble := v.extractLsb' 4 4
/-- CopDbg, bits [3:0]. -/
def CopDbg (v : Word) : Nibble := v.extractLsb' 0 4

/-- The register made of its eight fields, the high field first (R13). -/
def ofFields (traceFilt perfMon mProfDbg mMapTrc copTrc mMapDbg copSDbg copDbg : Nibble) : Word :=
  placeAt 28 traceFilt ||| placeAt 24 perfMon ||| placeAt 20 mProfDbg ||| placeAt 16 mMapTrc
    ||| placeAt 12 copTrc ||| placeAt 8 mMapDbg ||| placeAt 4 copSDbg ||| placeAt 0 copDbg

/-- `ID_DFR0_EL1[31:0]`: the same storage under its AArch64 name (R12). -/
def ID_DFR0_EL1_low (c : Config) : Word := c.ID_DFR0

/-! ### What a field's value means; `none` is a reserved value -/

/-- R15. -/
inductive TraceFiltMeaning where
  | notImplemented | implemented
  deriving DecidableEq, Repr

/-- R15. -/
def TraceFiltMeaning.ofField (f : Nibble) : Option TraceFiltMeaning :=
  match f.toNat with
  | 0b0000 => some .notImplemented
  | 0b0001 => some .implemented
  | _ => none

/-- R18. -/
inductive PerfMonMeaning where
  | notImplemented | pmuv1 | pmuv2 | pmuv3 | pmuv3Armv8p1 | pmuv3Armv8p4 | pmuv3Armv8p5 | pmuv3Armv8p7
  | pmuv3Armv8p8 | pmuv3Armv8p9 | implementationDefinedForm
  deriving DecidableEq, Repr

/-- R18. -/
def PerfMonMeaning.ofField (f : Nibble) : Option PerfMonMeaning :=
  match f.toNat with
  | 0b0000 => some .notImplemented
  | 0b0001 => some .pmuv1
  | 0b0010 => some .pmuv2
  | 0b0011 => some .pmuv3
  | 0b0100 => some .pmuv3Armv8p1
  | 0b0101 => some .pmuv3Armv8p4
  | 0b0110 => some .pmuv3Armv8p5
  | 0b0111 => some .pmuv3Armv8p7
  | 0b1000 => some .pmuv3Armv8p8
  | 0b1001 => some .pmuv3Armv8p9
  | 0b1111 => some .implementationDefinedForm
  | _ => none

/-- R23. -/
inductive MProfDbgMeaning where
  | notSupported | memoryMapped
  deriving DecidableEq, Repr

/-- R23. -/
def MProfDbgMeaning.ofField (f : Nibble) : Option MProfDbgMeaning :=
  match f.toNat with
  | 0b0000 => some .notSupported
  | 0b0001 => some .memoryMapped
  | _ => none

/-- R24. -/
inductive MMapTrcMeaning where
  | notSupported | memoryMapped
  deriving DecidableEq, Repr

/-- R24. -/
def MMapTrcMeaning.ofField (f : Nibble) : Option MMapTrcMeaning :=
  match f.toNat with
  | 0b0000 => some .notSupported
  | 0b0001 => some .memoryMapped
  | _ => none

/-- R25. -/
inductive CopTrcMeaning where
  | notSupported | systemRegisters
  deriving DecidableEq, Repr

/-- R25. -/
def CopTrcMeaning.ofField (f : Nibble) : Option CopTrcMeaning :=
  match f.toNat with
  | 0b0000 => some .notSupported
  | 0b0001 => some .systemRegisters
  | _ => none

/-- R26. -/
inductive MMapDbgMeaning where
  | notSupported | armv7 | armv7p1
  deriving DecidableEq, Repr

/-- R26. -/
def MMapDbgMeaning.ofField (f : Nibble) : Option MMapDbgMeaning :=
  match f.toNat with
  | 0b0000 => some .notSupported
  | 0b0100 => some .armv7
  | 0b0101 => some .armv7p1
  | _ => none

/-- R28. -/
inductive CopDbgMeaning where
  | notSupported | armv6 | armv6p1 | armv7 | armv7p1 | armv8 | armv8p1 | armv8p2 | armv8p4 | armv8p8 | armv8p9
  deriving DecidableEq, Repr

/-- R28. -/
def CopDbgMeaning.ofField (f : Nibble) : Option CopDbgMeaning :=
  match f.toNat with
  | 0b0000 => some .notSupported
  | 0b0010 => some .armv6
  | 0b0011 => some .armv6p1
  | 0b0100 => some .armv7
  | 0b0101 => some .armv7p1
  | 0b0110 => some .armv8
  | 0b0111 => some .armv8p1
  | 0b1000 => some .armv8p2
  | 0b1001 => some .armv8p4
  | 0b1010 => some .armv8p8
  | 0b1011 => some .armv8p9
  | _ => none

/-! ### Which values an implementation may hold (R32)

Each group is one block of R32's conjunction, written clause by clause as the spec writes it. Fields are compared as
unsigned numbers (00_scope.md section 5); "From Armv8.N" is `V8_MINOR ≥ N` (92_eei_decisions.md D4). -/

/-- Every field holds a listed (not reserved) value; CopSDbg has no list of its own (R15, R18, R23 to R28). -/
def listed (v : Word) : Bool :=
  (TraceFiltMeaning.ofField (TraceFilt v)).isSome && (PerfMonMeaning.ofField (PerfMon v)).isSome
    && (MProfDbgMeaning.ofField (MProfDbg v)).isSome && (MMapTrcMeaning.ofField (MMapTrc v)).isSome
    && (CopTrcMeaning.ofField (CopTrc v)).isSome && (MMapDbgMeaning.ofField (MMapDbg v)).isSome
    && (CopDbgMeaning.ofField (CopDbg v)).isSome

/-- TraceFilt (R16, R17). -/
def traceFiltPermitted (c : Config) (f : Nibble) : Bool :=
  decide ((f = 0b0001#4 ↔ c.FEAT_TRF = true)
    ∧ (c.V8_MINOR ≥ 4 ∧ c.FEAT_ETMv4 = true → f ≠ 0b0000#4)
    ∧ (c.FEAT_ETE = true → f ≠ 0b0000#4))

/-- PerfMon, from value to feature (R19). -/
def perfMonFeatures (c : Config) (f : Nibble) : Bool :=
  decide ((0b0011#4 ≤ f ∧ f ≤ 0b1001#4 → c.FEAT_PMUv3 = true)
    ∧ (0b0100#4 ≤ f ∧ f ≤ 0b1001#4 → c.FEAT_PMUv3p1 = true)
    ∧ (0b0101#4 ≤ f ∧ f ≤ 0b1001#4 → c.FEAT_PMUv3p4 = true)
    ∧ (0b0110#4 ≤ f ∧ f ≤ 0b1001#4 → c.FEAT_PMUv3p5 = true)
    ∧ (0b0111#4 ≤ f ∧ f ≤ 0b1001#4 → c.FEAT_PMUv3p7 = true)
    ∧ (0b1000#4 ≤ f ∧ f ≤ 0b1001#4 → c.FEAT_PMUv3p8 = true)
    ∧ (f = 0b1001#4 → c.FEAT_PMUv3p9 = true))

/-- PerfMon, values an Armv8.N implementation must not use (R20) and values that deny FEAT_PMUv3 (R22). R21's note on
Armv7 adds nothing (90_conflicts.md C3). -/
def perfMonVersions (c : Config) (f : Nibble) : Bool :=
  decide ((c.ARMV8A = true → f ≠ 0b0001#4 ∧ f ≠ 0b0010#4)
    ∧ (c.FEAT_PMUv3 = true ∧ c.V8_MINOR ≥ 1 → f ≠ 0b0011#4)
    ∧ (c.FEAT_PMUv3 = true ∧ c.V8_MINOR ≥ 4 → f ≠ 0b0100#4)
    ∧ (c.FEAT_PMUv3 = true ∧ c.V8_MINOR ≥ 5 → f ≠ 0b0101#4)
    ∧ (c.FEAT_PMUv3 = true ∧ c.V8_MINOR ≥ 7 → f ≠ 0b0110#4)
    ∧ (c.FEAT_PMUv3 = true ∧ c.V8_MINOR ≥ 8 → f ≠ 0b0111#4)
    ∧ (c.FEAT_PMUv3 = true ∧ c.V8_MINOR ≥ 9 → f ≠ 0b1000#4)
    ∧ (c.FEAT_PMUv3 = true → f ≠ 0b0000#4 ∧ f ≠ 0b1111#4))

/-- MProfDbg and MMapDbg are zero in Armv8-A (R23, R26). -/
def armv8aZeroFields (c : Config) (v : Word) : Bool :=
  decide ((c.ARMV8A = true → MProfDbg v = 0b0000#4) ∧ (c.ARMV8A = true → MMapDbg v = 0b0000#4))

/-- The value CopSDbg must have beside a CopDbg (R27, 90_conflicts.md C2, D15): RES0, read as zero, without EL3 in
Non-secure state, and CopDbg otherwise. -/
def copSDbgOf (c : Config) (copDbg : Nibble) : Nibble :=
  if c.HAVE_EL3 = false ∧ c.NOEL3_STATE = .nonSecure then 0b0000#4 else copDbg

/-- CopDbg, from value to feature (R29). -/
def copDbgFeatures (c : Config) (f : Nibble) : Bool :=
  decide ((0b0111#4 ≤ f ∧ f ≤ 0b1011#4 → c.FEAT_Debugv8p1 = true)
    ∧ (0b1000#4 ≤ f ∧ f ≤ 0b1011#4 → c.FEAT_Debugv8p2 = true)
    ∧ (0b1001#4 ≤ f ∧ f ≤ 0b1011#4 → c.FEAT_Debugv8p4 = true)
    ∧ (0b1010#4 ≤ f ∧ f ≤ 0b1011#4 → c.FEAT_Debugv8p8 = true)
    ∧ (f = 0b1011#4 → c.FEAT_Debugv8p9 = true))

/-- CopDbg, values an Armv8.N implementation must not use (R30). -/
def copDbgVersions (c : Config) (f : Nibble) : Bool :=
  decide ((c.ARMV8A = true → f ≠ 0b0000#4 ∧ f ≠ 0b0010#4 ∧ f ≠ 0b0011#4 ∧ f ≠ 0b0100#4 ∧ f ≠ 0b0101#4)
    ∧ (c.V8_MINOR ≥ 1 ∧ c.FEAT_Debugv8p1 = true → f ≠ 0b0110#4)
    ∧ (c.V8_MINOR ≥ 2 → f ≠ 0b0110#4 ∧ f ≠ 0b0111#4)
    ∧ (c.V8_MINOR ≥ 4 → f ≠ 0b1000#4)
    ∧ (c.V8_MINOR ≥ 8 → f ≠ 0b1001#4)
    ∧ (c.V8_MINOR ≥ 9 → f ≠ 0b1010#4))

/-- `Permitted(cfg, v)` (R32). -/
def Permitted (c : Config) (v : Word) : Bool :=
  listed v && traceFiltPermitted c (TraceFilt v)
    && perfMonFeatures c (PerfMon v) && perfMonVersions c (PerfMon v)
    && armv8aZeroFields c v && CopSDbg v == copSDbgOf c (CopDbg v)
    && copDbgFeatures c (CopDbg v) && copDbgVersions c (CopDbg v)

/-- The configurations the model admits: an Armv8-A implementation (92_eei_decisions.md D17) whose register value is
permitted (R32, D2, D16). -/
def admitted (c : Config) : Bool := c.ARMV8A && Permitted c c.ID_DFR0

/-! ### How software compares field values (00_scope.md R4, GK6, GK7: PRESUMED, log entry 12) -/

/-- The standard ID scheme: the functionality of `value` is there when the field is at least `value` (GK6). -/
def standardScheme (field value : Nibble) : Bool := decide (value ≤ field)

/-- The alternative ID scheme of PerfMon: 0b1111 is not greater than the others (GK7). -/
def alternativeScheme (field value : Nibble) : Bool := field != 0b1111#4 && decide (value ≤ field)

end Sys2Proof.Machine.IdDfr0
end

