-- ==== Sys2Proof/Machine/Operands.lean ====
section
/-! DEFINITION. The one operand: the destination `<Rt>`. -/

namespace Sys2Proof.Machine

/-- The general register a destination names, where the spec admits it (40_mrc_id_dfr0.md R64, 92_eei_decisions.md
D6): 0 to 14 in A32; 0 to 12 and 14 in T32. -/
def destination (iset : InstrSet) (rt : Nibble) : Option (Fin 15) :=
  match iset with
  | .a32 => if h : rt.toNat < 15 then some ⟨rt.toNat, h⟩ else none
  | .t32 => if rt = 13#4 then none else if h : rt.toNat < 15 then some ⟨rt.toNat, h⟩ else none

end Sys2Proof.Machine
end

