-- ==== Sys2Proof/Machine/Ops.lean ====
section
/-! DEFINITION. The shared operations: registers, the access rule, raising an outcome, completing an instruction, and
the enclosing machine's fetch and program counter. -/

namespace Sys2Proof.Machine

/-! ### General registers (10_state.md R35) -/

/-- `x[t]`. -/
def State.readReg (s : State) (t : Fin 15) : Word := s.x[t]

/-- `x[t] <- v`. -/
def State.writeReg (s : State) (t : Fin 15) (v : Word) : State := { s with x := s.x.set t v }

/-! ### The access rule (40_mrc_id_dfr0.md R60) -/

/-- The outcome of executing the read (00_scope.md section 6, `Outcome`). -/
inductive ReadOutcome where
  /-- `Write(t, v)`: `x[t] <- v` and the instruction completes. -/
  | write (t : Fin 15) (v : Word)
  /-- `Undefined`, `TrapToAArch64EL2(0x03)` or `HypTrap(0x03)`. -/
  | raises (f : Fault)
  deriving DecidableEq, Repr

/-- The number the two trap calls pass, carried uninterpreted (60_exceptions.md R71, R72; GK3). -/
def trapCode : Nat := 0x03

/-- `ReadID_DFR0(cfg, ctx, t)`: the access pseudocode, test by test in its own order (R60, R62). -/
def readID_DFR0 (cfg : Config) (ctx : Context) (t : Fin 15) : ReadOutcome :=
  if !cfg.FEAT_AA32EL1 then .raises .undefined
  else match ctx.EL with
    | .EL0 => .raises .undefined
    | .EL1 =>
      if ctx.EL2Enabled && cfg.FEAT_AA64EL2 && !ctx.EL2UsingAArch32 && ctx.HSTR_EL2_T0 == 1#1 then
        .raises (.trapToAArch64 .EL2 trapCode)
      else if ctx.EL2Enabled && cfg.FEAT_AA32EL2 && ctx.EL2UsingAArch32 && ctx.HSTR_T0 == 1#1 then
        .raises (.hypTrap trapCode)
      else if ctx.EL2Enabled && cfg.FEAT_AA64EL2 && !ctx.EL2UsingAArch32 && ctx.HCR_EL2_TID3 == 1#1 then
        .raises (.trapToAArch64 .EL2 trapCode)
      else if ctx.EL2Enabled && cfg.FEAT_AA32EL2 && ctx.EL2UsingAArch32 && ctx.HCR_TID3 == 1#1 then
        .raises (.hypTrap trapCode)
      else .write t cfg.ID_DFR0
    | .EL2 => .write t cfg.ID_DFR0
    | .EL3 => .write t cfg.ID_DFR0

/-- `A64trap` of the decision table (R61). -/
def a64Trap (cfg : Config) (ctx : Context) : Bool :=
  ctx.EL2Enabled && cfg.FEAT_AA64EL2 && !ctx.EL2UsingAArch32 && (ctx.HSTR_EL2_T0 == 1#1 || ctx.HCR_EL2_TID3 == 1#1)

/-- `A32trap` of the decision table (R61). -/
def a32Trap (cfg : Config) (ctx : Context) : Bool :=
  ctx.EL2Enabled && cfg.FEAT_AA32EL2 && ctx.EL2UsingAArch32 && (ctx.HSTR_T0 == 1#1 || ctx.HCR_TID3 == 1#1)

/-- The access rule as a decision table (R61), row by row: a second, independent writing of `readID_DFR0`. -/
def readID_DFR0_table (cfg : Config) (ctx : Context) (t : Fin 15) : ReadOutcome :=
  match cfg.FEAT_AA32EL1, ctx.EL, a64Trap cfg ctx, a32Trap cfg ctx with
  | false, _, _, _ => .raises .undefined
  | true, .EL0, _, _ => .raises .undefined
  | true, .EL1, true, _ => .raises (.trapToAArch64 .EL2 trapCode)
  | true, .EL1, false, true => .raises (.hypTrap trapCode)
  | true, .EL1, false, false => .write t cfg.ID_DFR0
  | true, .EL2, _, _ => .write t cfg.ID_DFR0
  | true, .EL3, _, _ => .write t cfg.ID_DFR0

/-! ### Raising an outcome and completing an instruction -/

/-- Taking an exception, as far as the spec goes: the named outcome is recorded, nothing is written, and the run does
not continue inside the model (60_exceptions.md R70, R71, R72, R75; 92_eei_decisions.md D5). What is saved, where control
goes and how it returns are not in the spec, so there is no return from an exception beside it. -/
def takeException (f : Fault) : Host.Outcome State Fault Refusal := .fault f

/-- An executed read ends: the register is written or the outcome raised (40_mrc_id_dfr0.md R60). -/
def State.finish (s : State) : ReadOutcome → Host.Outcome State Fault Refusal
  | .write t v => .next (s.writeReg t v)
  | .raises f => takeException f

/-- Whether the implementation raises an outcome although the instruction's condition failed (40_mrc_id_dfr0.md R65,
GK10: left to the implementation; log entry 6). -/
def Config.raisesOnFailedCondition (c : Config) : Fault → Bool
  | .undefined => c.failedConditionUndefined
  | .trapToAArch64 _ _ => c.failedConditionTraps
  | .hypTrap _ => c.failedConditionTraps

/-- A read whose condition fails: a no-operation, but for an outcome the implementation still raises
(40_mrc_id_dfr0.md R65, GK10; log entry 6). -/
def State.finishFailedCondition (s : State) : ReadOutcome → Host.Outcome State Fault Refusal
  | .write _ _ => .next s
  | .raises f => if Config.raisesOnFailedCondition s.cfg f then takeException f else .next s

/-- The ID_DFR0 read under a condition (R60 when it passes, R65 when it fails). `none` is a destination the spec gives
no meaning (R64). -/
def State.readUnder (s : State) (passes : Bool) : Option (Fin 15) → Host.Outcome State Fault Refusal
  | none => .refused .destinationNotAdmitted
  | some t =>
    if passes then s.finish (readID_DFR0 s.cfg s.ctx t) else s.finishFailedCondition (readID_DFR0 s.cfg s.ctx t)

/-! ### The enclosing machine: supplied words and program counter (92_eei_decisions.md D8, D9; log entries 8, 9) -/

/-- The word supplied at an address, if any. -/
def supplyAt : List (Nat × Word) → Nat → Option Word
  | [], _ => none
  | (b, w) :: rest, a => if a = b then some w else supplyAt rest a

/-- The supply with a word placed at an address, addresses kept strictly rising. -/
def supplyPut : List (Nat × Word) → Nat → Word → List (Nat × Word)
  | [], a, v => [(a, v)]
  | (b, w) :: rest, a, v =>
    if a < b then (a, v) :: (b, w) :: rest
    else if a = b then (a, v) :: rest
    else (b, w) :: supplyPut rest a v

/-- The canonical form of the supply: addresses strictly rising. -/
def supplyWf : List (Nat × Word) → Bool
  | [] => true
  | [_] => true
  | (a, _) :: (b, w) :: rest => decide (a < b) && supplyWf ((b, w) :: rest)

/-- The word fetched next: the one supplied at exactly the program counter, whatever its alignment. The alignment an
instruction needs and what a misaligned fetch does are not in the spec (20_memory.md section 2, D9): DESIGN CHOICE, log
entry 21. -/
def State.fetch (s : State) : Option Word := supplyAt s.supply s.pc.toNat

/-- Moving past a completed instruction: both encodings are 4 bytes long (GK12), and in T32 the instruction has used up
its place in the IT block (log entry 7). -/
def State.advance (s : State) : State :=
  { s with
    pc := s.pc + 4#32
    itBlock := match s.iset with
      | .a32 => s.itBlock
      | .t32 => s.itBlock.tail }

end Sys2Proof.Machine
end

