-- ==== Sys2Proof/Machine/Mrc.lean ====
section
/-! DEFINITION. The meanings: the MRC that reads ID_DFR0, one definition per encoding (40_mrc_id_dfr0.md R60 to R65). -/

namespace Sys2Proof.Machine

/-- The A32 form: under its own `cond` field; destinations 0 to 14 (R60, R64, R65). -/
def execMrcA32 (c : Cond) (rt : Nibble) (s : State) : Host.Outcome State Fault Refusal :=
  s.readUnder (s.conditionPasses (.mrcA32 c rt)) (destination .a32 rt)

/-- The T32 form: under the condition of an enclosing IT block, if there is one; destinations 0 to 12 and 14
(R53, R60, R64, R65). -/
def execMrcT32 (rt : Nibble) (s : State) : Host.Outcome State Fault Refusal :=
  s.readUnder (s.conditionPasses (.mrcT32 rt)) (destination .t32 rt)

end Sys2Proof.Machine
end

