-- ==== Sys2Proof/Machine/Dispatch.lean ====
section
/-! DEFINITION. One arm per instruction. -/

namespace Sys2Proof.Machine

def exec (i : Instr) (s : State) : Host.Outcome State Fault Refusal :=
  match i with
  | .mrcA32 c rt => Sys2Proof.Machine.execMrcA32 c rt s
  | .mrcT32 rt => Sys2Proof.Machine.execMrcT32 rt s

end Sys2Proof.Machine
end

