-- ==== Sys2Proof/Machine/Step.lean ====
section
/-! DEFINITION. One step: the configuration is admitted, a word is fetched and decoded in the current instruction set,
the instruction executes, and the program counter moves past it. -/

namespace Sys2Proof.Machine

/-- One step. Order: the configuration (10_state.md R32, D17), the fetch (D9), the decoder (30_encoding.md R54, R56),
the instruction (40_mrc_id_dfr0.md R60), and after a next state the program counter (D8). One indivisible step, with no
interrupt point inside (60_exceptions.md R78, D20). -/
def step (s : State) : Host.Outcome State Fault Refusal :=
  if s.cfg.ARMV8A = false then .refused .notArmv8A
  else if IdDfr0.Permitted s.cfg s.cfg.ID_DFR0 = false then .refused .configurationNotPermitted
  else match s.fetch with
    | none => .refused .noInstructionSupplied
    | some w =>
      match decode s.iset w with
      | .error e => .refused (.notIdDfr0Read e)
      | .ok i =>
        match exec i s with
        | .next s' => .next s'.advance
        | .fault f => .fault f
        | .refused r => .refused r

/-- The state with a table word placed where `step` fetches next, and the instruction set selected under which
`decodeTableWord` reads it (log entries 9, 10). -/
def State.withFetchWord (s : State) (nbits w : Nat) : State :=
  { s with
    supply := supplyPut s.supply s.pc.toNat (tableWord nbits w)
    iset := tableInstrSet (tableWord nbits w) }

end Sys2Proof.Machine
end

