-- ==== Sys2Proof/Safety.lean ====
section
/-! DEFINITION. What claims are stated in terms of: when a read is allowed, when a step completes, and the invariant. -/

namespace Sys2Proof.Machine

/-- The read succeeds in this context (40_mrc_id_dfr0.md R61, 60_exceptions.md R77): the register is present, the level
is above EL0, and at EL1 no trap of the EL2 regime in use is on. -/
def readAllowed (cfg : Config) (ctx : Context) : Bool :=
  cfg.FEAT_AA32EL1 &&
    match ctx.EL with
    | .EL0 => false
    | .EL1 => !a64Trap cfg ctx && !a32Trap cfg ctx
    | .EL2 => true
    | .EL3 => true

/-- A step or an instruction completes: it answers a next state. -/
def Completes (o : Host.Outcome State Fault Refusal) : Prop := ∃ s', o = .next s'

/-- The invariant: the configuration is one the model admits (10_state.md R32, D17) and the supplied words are in
canonical form. -/
def State.Inv (s : State) : Bool := IdDfr0.admitted s.cfg && supplyWf s.supply

/-- The state with another value in ID_DFR0, to compare two machines that differ in nothing else. -/
def State.withIdDfr0 (s : State) (v : Word) : State := { s with cfg := { s.cfg with ID_DFR0 := v } }

/-- An outcome with its next state changed by a function; a fault or a refusal as it is. -/
def mapNext (f : State → State) : Host.Outcome State Fault Refusal → Host.Outcome State Fault Refusal
  | .next s => .next (f s)
  | .fault r => .fault r
  | .refused r => .refused r

end Sys2Proof.Machine
end

