-- ==== Sys2Proof/Laws/State.lean ====
section
/-! SUPPORT. One lemma per field per update of the state, and the register file's read-after-write laws. -/

namespace Sys2Proof.Machine

/-! ### `writeReg` -/

@[simp] theorem writeReg_cfg (s : State) (t v) : (s.writeReg t v).cfg = s.cfg := rfl
@[simp] theorem writeReg_ctx (s : State) (t v) : (s.writeReg t v).ctx = s.ctx := rfl
@[simp] theorem writeReg_x (s : State) (t v) : (s.writeReg t v).x = s.x.set t v := rfl
@[simp] theorem writeReg_flags (s : State) (t v) : (s.writeReg t v).flags = s.flags := rfl
@[simp] theorem writeReg_iset (s : State) (t v) : (s.writeReg t v).iset = s.iset := rfl
@[simp] theorem writeReg_itBlock (s : State) (t v) : (s.writeReg t v).itBlock = s.itBlock := rfl
@[simp] theorem writeReg_pc (s : State) (t v) : (s.writeReg t v).pc = s.pc := rfl
@[simp] theorem writeReg_supply (s : State) (t v) : (s.writeReg t v).supply = s.supply := rfl

/-- A register reads as what was written to it. -/
theorem readReg_writeReg_same (s : State) (t : Fin 15) (v : Word) : (s.writeReg t v).readReg t = v := by
  simp [State.readReg]

/-- Every other register reads as before. -/
theorem readReg_writeReg_other (s : State) {t r : Fin 15} (v : Word) (h : r ≠ t) :
    (s.writeReg t v).readReg r = s.readReg r := by
  have h' : (t : Nat) ≠ r := fun e => h (Fin.ext e.symm)
  simp [State.readReg, h']

/-! ### `advance` -/

@[simp] theorem advance_cfg (s : State) : s.advance.cfg = s.cfg := rfl
@[simp] theorem advance_ctx (s : State) : s.advance.ctx = s.ctx := rfl
@[simp] theorem advance_x (s : State) : s.advance.x = s.x := rfl
@[simp] theorem advance_flags (s : State) : s.advance.flags = s.flags := rfl
@[simp] theorem advance_iset (s : State) : s.advance.iset = s.iset := rfl
@[simp] theorem advance_pc (s : State) : s.advance.pc = s.pc + 4#32 := rfl
@[simp] theorem advance_supply (s : State) : s.advance.supply = s.supply := rfl
@[simp] theorem advance_readReg (s : State) (r : Fin 15) : s.advance.readReg r = s.readReg r := rfl

theorem advance_itBlock_a32 (s : State) (h : s.iset = .a32) : s.advance.itBlock = s.itBlock := by
  simp [State.advance, h]

theorem advance_itBlock_t32 (s : State) (h : s.iset = .t32) : s.advance.itBlock = s.itBlock.tail := by
  simp [State.advance, h]

/-! ### `withFetchWord` -/

@[simp] theorem withFetchWord_cfg (s : State) (n w : Nat) : (s.withFetchWord n w).cfg = s.cfg := rfl
@[simp] theorem withFetchWord_ctx (s : State) (n w : Nat) : (s.withFetchWord n w).ctx = s.ctx := rfl
@[simp] theorem withFetchWord_x (s : State) (n w : Nat) : (s.withFetchWord n w).x = s.x := rfl
@[simp] theorem withFetchWord_flags (s : State) (n w : Nat) : (s.withFetchWord n w).flags = s.flags := rfl
@[simp] theorem withFetchWord_itBlock (s : State) (n w : Nat) : (s.withFetchWord n w).itBlock = s.itBlock := rfl
@[simp] theorem withFetchWord_pc (s : State) (n w : Nat) : (s.withFetchWord n w).pc = s.pc := rfl
@[simp] theorem withFetchWord_iset (s : State) (n w : Nat) :
    (s.withFetchWord n w).iset = tableInstrSet (tableWord n w) := rfl
@[simp] theorem withFetchWord_supply (s : State) (n w : Nat) :
    (s.withFetchWord n w).supply = supplyPut s.supply s.pc.toNat (tableWord n w) := rfl

/-! ### `withIdDfr0` -/

@[simp] theorem withIdDfr0_cfg (s : State) (v) : (s.withIdDfr0 v).cfg = { s.cfg with ID_DFR0 := v } := rfl
@[simp] theorem withIdDfr0_ctx (s : State) (v) : (s.withIdDfr0 v).ctx = s.ctx := rfl
@[simp] theorem withIdDfr0_x (s : State) (v) : (s.withIdDfr0 v).x = s.x := rfl
@[simp] theorem withIdDfr0_flags (s : State) (v) : (s.withIdDfr0 v).flags = s.flags := rfl
@[simp] theorem withIdDfr0_iset (s : State) (v) : (s.withIdDfr0 v).iset = s.iset := rfl
@[simp] theorem withIdDfr0_itBlock (s : State) (v) : (s.withIdDfr0 v).itBlock = s.itBlock := rfl
@[simp] theorem withIdDfr0_pc (s : State) (v) : (s.withIdDfr0 v).pc = s.pc := rfl
@[simp] theorem withIdDfr0_supply (s : State) (v) : (s.withIdDfr0 v).supply = s.supply := rfl

end Sys2Proof.Machine
end

