-- ==== Sys2Proof/Laws/Decode.lean ====
section
/-! SUPPORT. The words of the register transfer format and their fields. -/

namespace Sys2Proof

/-- Bit `i` of a field at its place. -/
theorem getLsbD_placeAt {n : Nat} (pos : Nat) (f : BitVec n) (i : Nat) :
    (placeAt pos f).getLsbD i = (decide (i < 32) && decide (pos ≤ i) && f.getLsbD (i - pos)) := by
  by_cases hi : i < 32 <;> by_cases hp : pos ≤ i
  · simp [placeAt, hi, hp, Nat.not_lt.2 hp]
  · simp [placeAt, hi, hp, Nat.not_le.1 hp]
  all_goals simp [placeAt, hi]

/-- The fields of a word made of fields are those fields. -/
theorem ofWord_toWord (f : MrcFields) : MrcFields.ofWord f.toWord = f := by
  obtain ⟨top, op, opc1, read, crn, rt, coproc, opc2, one, crm⟩ := f
  simp only [MrcFields.ofWord, MrcFields.toWord, MrcFields.mk.injEq]
  refine ⟨?_, ?_, ?_, ?_, ?_, ?_, ?_, ?_, ?_, ?_⟩ <;>
    (apply BitVec.eq_of_getLsbD_eq; intro i hi
     simp only [BitVec.getLsbD_extractLsb', BitVec.getLsbD_or, getLsbD_placeAt]
     interval_cases i <;> simp [BitVec.getLsbD_of_ge])

/-- A word is made of its fields. -/
theorem toWord_ofWord (w : Word) : (MrcFields.ofWord w).toWord = w := by
  apply BitVec.eq_of_getLsbD_eq
  intro i hi
  simp only [MrcFields.ofWord, MrcFields.toWord, BitVec.getLsbD_or, getLsbD_placeAt, BitVec.getLsbD_extractLsb']
  interval_cases i <;> simp

theorem Cond.ofBits_toBits (c : Cond) : Cond.ofBits c.toBits = some c := by
  cases c <;> rfl

/-- A `cond` field that names a condition is that condition's field. -/
theorem Cond.toBits_of_ofBits {b : Nibble} {c : Cond} (h : Cond.ofBits b = some c) : c.toBits = b := by
  revert b c
  decide +revert

/-- Only 0b1111 names no condition. -/
theorem Cond.ofBits_isSome (b : Nibble) : (Cond.ofBits b).isSome = true ↔ b ≠ 15#4 := by
  revert b
  decide

/-- Decoding a word made of fields is decoding the fields. -/
theorem decode_toWord (iset : InstrSet) (f : MrcFields) : decode iset f.toWord = decodeFields iset f := by
  rw [decode, ofWord_toWord]

/-- What fields that decode look like: those of the instruction they decode to, in its own instruction set, with an
admitted destination. -/
theorem decodeFields_ok {iset : InstrSet} {f : MrcFields} {i : Instr} (h : decodeFields iset f = .ok i) :
    i.wellFormed = true ∧ i.instrSet = iset ∧ f = encodeFields i := by
  obtain ⟨top, op, opc1, read, crn, rt, coproc, opc2, one, crm⟩ := f
  have shape : op = 0b1110#4 ∧ one = 1#1 ∧ read = 1#1
      ∧ MrcFields.selector ⟨top, op, opc1, read, crn, rt, coproc, opc2, one, crm⟩ = idDfr0Selector := by
    unfold decodeFields at h
    by_cases h1 : op ≠ 0b1110#4 ∨ one ≠ 1#1
    · rw [if_pos h1] at h; cases h
    rw [if_neg h1] at h
    by_cases h2 : MrcFields.selector ⟨top, op, opc1, read, crn, rt, coproc, opc2, one, crm⟩ ≠ idDfr0Selector
    · rw [if_pos h2] at h; cases h
    rw [if_neg h2] at h
    by_cases h3 : read ≠ 1#1
    · rw [if_pos h3] at h; cases h
    simp only [not_or, not_not] at h1 h2 h3
    exact ⟨h1.1, h1.2, h3, h2⟩
  obtain ⟨rfl, rfl, rfl, hsel⟩ := shape
  simp only [MrcFields.selector, idDfr0Selector, Selector.mk.injEq] at hsel
  obtain ⟨rfl, rfl, rfl, rfl, rfl⟩ := hsel
  cases iset with
  | a32 =>
    cases hc : Cond.ofBits top with
    | none => simp [decodeFields, MrcFields.selector, idDfr0Selector, hc] at h
    | some c =>
      simp only [decodeFields, MrcFields.selector, idDfr0Selector, hc, ne_eq, not_true_eq_false, or_self, if_false] at h
      split_ifs at h with hw
      cases h
      exact ⟨hw, rfl, by simp [encodeFields, idDfr0ReadFields, idDfr0Selector, Cond.toBits_of_ofBits hc]⟩
  | t32 =>
    by_cases ht : top = 0b1110#4
    · subst ht
      simp only [decodeFields, MrcFields.selector, idDfr0Selector, ne_eq, not_true_eq_false, or_self, if_false] at h
      split_ifs at h with hw
      cases h
      exact ⟨hw, rfl, rfl⟩
    · simp [decodeFields, MrcFields.selector, idDfr0Selector, ht] at h

end Sys2Proof
end

