-- ==== Sys2Proof/Laws/IdDfr0.lean ====
section
/-! SUPPORT. ID_DFR0: the clauses of `Permitted` one by one, and the bits of a register made of fields. -/

namespace Sys2Proof.Machine.IdDfr0

/-- The eight groups of `Permitted` (10_state.md R32). -/
theorem permitted_groups {c : Config} {v : Word} (h : Permitted c v = true) :
    listed v = true ∧ traceFiltPermitted c (TraceFilt v) = true ∧ perfMonFeatures c (PerfMon v) = true
      ∧ perfMonVersions c (PerfMon v) = true ∧ armv8aZeroFields c v = true
      ∧ CopSDbg v = copSDbgOf c (CopDbg v) ∧ copDbgFeatures c (CopDbg v) = true
      ∧ copDbgVersions c (CopDbg v) = true := by
  simpa only [Permitted, Bool.and_eq_true, beq_iff_eq, and_assoc] using h

/-- An admitted configuration is an Armv8-A one with a permitted register value. -/
theorem admitted_iff (c : Config) : admitted c = true ↔ c.ARMV8A = true ∧ Permitted c c.ID_DFR0 = true := by
  simp [admitted]

/-- Bit `i` of a register made of fields. -/
theorem getLsbD_ofFields (a b c d e f g h : Nibble) (i : Nat) :
    (ofFields a b c d e f g h).getLsbD i =
      ((placeAt 28 a).getLsbD i || (placeAt 24 b).getLsbD i || (placeAt 20 c).getLsbD i || (placeAt 16 d).getLsbD i
        || (placeAt 12 e).getLsbD i || (placeAt 8 f).getLsbD i || (placeAt 4 g).getLsbD i
        || (placeAt 0 h).getLsbD i) := by
  simp only [ofFields, BitVec.getLsbD_or]

end Sys2Proof.Machine.IdDfr0
end

