-- ==== Sys2Proof/Laws/Ops.lean ====
section
/-! SUPPORT. What each shared operation and each meaning can do, said once. -/

namespace Sys2Proof.Machine

/-! ### Destination -/

/-- An admitted destination is the register of that number. -/
theorem destination_some {iset : InstrSet} {rt : Nibble} {t : Fin 15} (h : destination iset rt = some t) :
    (t : Nat) = rt.toNat := by
  cases iset <;> simp only [destination] at h <;> split_ifs at h <;> cases h <;> rfl

/-- The destinations admitted are those of the well-formed instructions (40_mrc_id_dfr0.md R64). -/
theorem destination_of_wellFormed (i : Instr) (t : Fin 15) (hw : i.wellFormed = true) (ht : i.rt.toNat = t) :
    destination i.instrSet i.rt = some t := by
  have hlt : i.rt.toNat < 15 := ht ▸ t.isLt
  cases i with
  | mrcA32 c rt =>
    simp only [Instr.rt] at ht hlt
    simp [destination, Instr.instrSet, Instr.rt, ht]
  | mrcT32 rt =>
    simp only [Instr.rt, Instr.wellFormed, Bool.and_eq_true, bne_iff_ne] at ht hlt hw
    simp [destination, Instr.instrSet, Instr.rt, hw.1, ht]

/-- A well-formed instruction has a destination register. -/
theorem wellFormed_destination (i : Instr) (hw : i.wellFormed = true) :
    ∃ t : Fin 15, i.rt.toNat = t ∧ destination i.instrSet i.rt = some t := by
  have hne : i.rt ≠ 15#4 := by
    cases i <;> simp only [Instr.wellFormed, Bool.and_eq_true, bne_iff_ne] at hw
    · exact hw
    · exact hw.2
  have hlt : i.rt.toNat < 15 := by
    have := i.rt.isLt
    have : i.rt.toNat ≠ 15 := fun e => hne (BitVec.eq_of_toNat_eq (by simpa using e))
    omega
  exact ⟨⟨i.rt.toNat, hlt⟩, rfl, destination_of_wellFormed i ⟨i.rt.toNat, hlt⟩ hw rfl⟩

/-- An instruction that is not well-formed has none. -/
theorem destination_of_not_wellFormed (i : Instr) (hw : i.wellFormed = false) : destination i.instrSet i.rt = none := by
  cases i with
  | mrcA32 c rt =>
    have h : rt = 15#4 := by simpa [Instr.wellFormed] using hw
    subst h
    rfl
  | mrcT32 rt => revert hw; revert rt; decide

/-! ### The access rule -/

/-- When the read writes: exactly where it is allowed, and then all of ID_DFR0 to its own destination. -/
theorem readID_DFR0_of_allowed {cfg : Config} {ctx : Context} (t : Fin 15) (h : readAllowed cfg ctx = true) :
    readID_DFR0 cfg ctx t = .write t cfg.ID_DFR0 := by
  simp only [readAllowed, Bool.and_eq_true] at h
  obtain ⟨hf, hl⟩ := h
  cases hel : ctx.EL <;> simp only [hel] at hl <;> simp [readID_DFR0, hf, hel]
  · simp at hl
  · simp only [a64Trap, a32Trap, Bool.and_eq_true, Bool.not_eq_true'] at hl
    obtain ⟨h1, h2⟩ := hl
    split_ifs <;> simp_all

/-- At EL1 a trap of the AArch64 EL2 raises the trap to EL2 (R71). -/
theorem readID_DFR0_a64Trap {cfg : Config} {ctx : Context} (t : Fin 15) (hf : cfg.FEAT_AA32EL1 = true)
    (hel : ctx.EL = .EL1) (h : a64Trap cfg ctx = true) :
    readID_DFR0 cfg ctx t = .raises (.trapToAArch64 .EL2 trapCode) := by
  simp only [a64Trap, Bool.and_eq_true, Bool.or_eq_true, beq_iff_eq, Bool.not_eq_true'] at h
  obtain ⟨⟨⟨he, h64⟩, hu⟩, hb | hb⟩ := h <;> simp [readID_DFR0, hf, hel, he, h64, hu, hb]

/-- At EL1 a trap of the AArch32 EL2 raises the Hyp trap (R72). -/
theorem readID_DFR0_a32Trap {cfg : Config} {ctx : Context} (t : Fin 15) (hf : cfg.FEAT_AA32EL1 = true)
    (hel : ctx.EL = .EL1) (h : a32Trap cfg ctx = true) :
    readID_DFR0 cfg ctx t = .raises (.hypTrap trapCode) := by
  simp only [a32Trap, Bool.and_eq_true, Bool.or_eq_true, beq_iff_eq] at h
  obtain ⟨⟨⟨he, h32⟩, hu⟩, hb | hb⟩ := h <;> simp [readID_DFR0, hf, hel, he, h32, hu, hb]

/-- When the read raises: where it is not allowed, one of the three outcomes. -/
theorem readID_DFR0_of_not_allowed {cfg : Config} {ctx : Context} (t : Fin 15) (h : readAllowed cfg ctx = false) :
    ∃ f, readID_DFR0 cfg ctx t = .raises f
      ∧ (f = .undefined ∨ f = .trapToAArch64 .EL2 trapCode ∨ f = .hypTrap trapCode) := by
  cases hf : cfg.FEAT_AA32EL1
  · exact ⟨.undefined, by simp [readID_DFR0, hf], .inl rfl⟩
  cases hel : ctx.EL
  · exact ⟨.undefined, by simp [readID_DFR0, hel], .inl rfl⟩
  · cases h64 : a64Trap cfg ctx
    · cases h32 : a32Trap cfg ctx
      · simp [readAllowed, hf, hel, h64, h32] at h
      · exact ⟨_, readID_DFR0_a32Trap t hf hel h32, .inr (.inr rfl)⟩
    · exact ⟨_, readID_DFR0_a64Trap t hf hel h64, .inr (.inl rfl)⟩
  all_goals simp [readAllowed, hf, hel] at h

/-- The outcome of the access rule does not look at the destination but to carry it. -/
theorem readID_DFR0_raises_any {cfg : Config} {ctx : Context} {t : Fin 15} {f : Fault}
    (h : readID_DFR0 cfg ctx t = .raises f) (r : Fin 15) : readID_DFR0 cfg ctx r = .raises f := by
  unfold readID_DFR0 at h ⊢
  split_ifs at h ⊢ <;> first | exact h | (split at h <;> first | exact h | cases h)

/-! ### Instructions -/

/-- Both meanings are the one shared read. -/
theorem exec_eq_readUnder (i : Instr) (s : State) :
    exec i s = s.readUnder (s.conditionPasses i) (destination i.instrSet i.rt) := by
  cases i <;> rfl

/-- The read of a well-formed instruction whose condition passes. -/
theorem exec_of_passes {i : Instr} {s : State} {t : Fin 15} (hd : destination i.instrSet i.rt = some t)
    (hp : s.conditionPasses i = true) : exec i s = s.finish (readID_DFR0 s.cfg s.ctx t) := by
  simp [exec_eq_readUnder, hd, hp, State.readUnder]

/-- The read of a well-formed instruction whose condition fails. -/
theorem exec_of_fails {i : Instr} {s : State} {t : Fin 15} (hd : destination i.instrSet i.rt = some t)
    (hp : s.conditionPasses i = false) : exec i s = s.finishFailedCondition (readID_DFR0 s.cfg s.ctx t) := by
  simp [exec_eq_readUnder, hd, hp, State.readUnder]

/-- What an instruction that completes has done: nothing (its condition failed), or the read (its condition passed and
the read is allowed). -/
theorem exec_next {i : Instr} {s s' : State} (h : exec i s = .next s') :
    (s.conditionPasses i = false ∧ s' = s) ∨
    (s.conditionPasses i = true ∧ readAllowed s.cfg s.ctx = true ∧
      ∃ t, destination i.instrSet i.rt = some t ∧ s' = s.writeReg t s.cfg.ID_DFR0) := by
  cases hd : destination i.instrSet i.rt with
  | none => simp [exec_eq_readUnder, hd, State.readUnder] at h
  | some t =>
    cases hp : s.conditionPasses i with
    | false =>
      refine .inl ⟨rfl, ?_⟩
      rw [exec_of_fails hd hp] at h
      cases hr : readID_DFR0 s.cfg s.ctx t with
      | write t' v => simpa [hr, State.finishFailedCondition] using h.symm
      | raises f =>
        simp only [hr, State.finishFailedCondition, takeException] at h
        split_ifs at h
        simpa using h.symm
    | true =>
      rw [exec_of_passes hd hp] at h
      cases ha : readAllowed s.cfg s.ctx with
      | true =>
        rw [readID_DFR0_of_allowed t ha] at h
        exact .inr ⟨rfl, rfl, t, rfl, by simpa [State.finish] using h.symm⟩
      | false =>
        obtain ⟨f, hf, -⟩ := readID_DFR0_of_not_allowed t ha
        simp [hf, State.finish, takeException] at h

/-- What an instruction that faults was: a read the rule does not allow, raising one of the three outcomes. -/
theorem exec_fault {i : Instr} {s : State} {f : Fault} (h : exec i s = .fault f) :
    ∃ t, destination i.instrSet i.rt = some t ∧ readID_DFR0 s.cfg s.ctx t = .raises f := by
  cases hd : destination i.instrSet i.rt with
  | none => simp [exec_eq_readUnder, hd, State.readUnder] at h
  | some t =>
    refine ⟨t, rfl, ?_⟩
    cases hp : s.conditionPasses i with
    | false =>
      rw [exec_of_fails hd hp] at h
      cases hr : readID_DFR0 s.cfg s.ctx t with
      | write t' v => simp [hr, State.finishFailedCondition] at h
      | raises g =>
        simp only [hr, State.finishFailedCondition, takeException] at h
        split_ifs at h
        simpa using h
    | true =>
      rw [exec_of_passes hd hp] at h
      cases hr : readID_DFR0 s.cfg s.ctx t with
      | write t' v => simp [hr, State.finish] at h
      | raises g => simpa [hr, State.finish, takeException] using h

/-! ### The supply of words -/

theorem supplyAt_put_same (m : List (Nat × Word)) (a : Nat) (v : Word) : supplyAt (supplyPut m a v) a = some v := by
  induction m with
  | nil => simp [supplyPut, supplyAt]
  | cons e rest ih =>
    obtain ⟨b, w⟩ := e
    simp only [supplyPut]
    split_ifs with h1 h2
    · simp [supplyAt]
    · simp [supplyAt]
    · simp [supplyAt, h2, ih]

theorem supplyAt_put_other (m : List (Nat × Word)) {a b : Nat} (v : Word) (hne : b ≠ a) :
    supplyAt (supplyPut m a v) b = supplyAt m b := by
  induction m with
  | nil => simp [supplyPut, supplyAt, hne]
  | cons e rest ih =>
    obtain ⟨c, w⟩ := e
    simp only [supplyPut]
    split_ifs with h1 h2
    · simp [supplyAt, hne]
    · subst h2; simp [supplyAt, hne]
    · simp [supplyAt, ih]

/-- Placing a word above every address keeps the head's bound. -/
theorem supplyWf_cons {a : Nat} {w : Word} {m : List (Nat × Word)} :
    supplyWf ((a, w) :: m) = true ↔ (∀ e ∈ m.head?, a < e.1) ∧ supplyWf m = true := by
  cases m with
  | nil => simp [supplyWf]
  | cons e rest => obtain ⟨b, v⟩ := e; simp [supplyWf]

/-- Placing a word keeps the canonical form. -/
theorem supplyPut_wf {m : List (Nat × Word)} (a : Nat) (v : Word) (h : supplyWf m = true) :
    supplyWf (supplyPut m a v) = true := by
  induction m with
  | nil => rfl
  | cons e rest ih =>
    obtain ⟨b, w⟩ := e
    have hr := (supplyWf_cons.1 h)
    simp only [supplyPut]
    split_ifs with h1 h2
    · exact supplyWf_cons.2 ⟨by simpa using h1, h⟩
    · subst h2; exact supplyWf_cons.2 hr
    · refine supplyWf_cons.2 ⟨?_, ih hr.2⟩
      cases rest with
      | nil => simp [supplyPut]; omega
      | cons e' rest' =>
        obtain ⟨c, u⟩ := e'
        have hbc : b < c := by simpa using hr.1
        simp only [supplyPut]
        split_ifs <;> simp <;> omega

/-! ### The step -/

/-- What a step that completes has done. -/
theorem step_next {s s' : State} (h : step s = .next s') :
    IdDfr0.admitted s.cfg = true ∧ ∃ w i s1, s.fetch = some w ∧ decode s.iset w = .ok i ∧ exec i s = .next s1
      ∧ s' = s1.advance := by
  unfold step at h
  split_ifs at h with h1 h2
  refine ⟨by simp [IdDfr0.admitted, h1, h2], ?_⟩
  split at h
  · cases h
  · rename_i w hw
    split at h
    · cases h
    · rename_i i hi
      split at h
      · rename_i s1 he
        cases h
        exact ⟨w, i, s1, hw, hi, he, rfl⟩
      · cases h
      · cases h

end Sys2Proof.Machine
end

