-- ==== Sys2Proof/Laws/PerInstr.lean ====
section
/-! SUPPORT. Per-instruction statements. -/

namespace Sys2Proof.Laws.EncodedRow

/-- The fixed bits of an instruction's row of the opcode table (30_encoding.md section 5): mask and match. -/
def row : Instr → Word × Word
  | .mrcA32 _ _ => (0x0FFF0FFF#32, 0x0E100F51#32)
  | .mrcT32 _ => (0xFFFF0FFF#32, 0xEE100F51#32)

/-- The encoding of an instruction has its row's fixed bits. -/
def Statement (i : Instr) : Prop := encode i &&& (row i).1 = (row i).2

theorem mrcA32 (cond : Cond) (rt : Nibble) : Statement (.mrcA32 cond rt) := by
  unfold Statement
  cases cond <;> (revert rt; decide)

theorem mrcT32 (rt : Nibble) : Statement (.mrcT32 rt) := by
  unfold Statement
  revert rt
  decide

end Sys2Proof.Laws.EncodedRow
end

