-- ==== Sys2Proof/Certificates/Slice0/Obligations.lean ====
section
/-! DEFINITION. The statements for the provers. Rule numbers are those of spec/; a statement whose docstring names a log
entry rests on a choice of the model there. -/

open Sys2Proof Sys2Proof.Machine

/-! ### Encoding -/

/-- Decoding the word of a well-formed instruction, in its own instruction set, gives the instruction back (R51; the bit
positions R52, R53 are the spec's general knowledge, log entry 13). -/
def Obligations.DecodeOfEncodeIsIdentity : Prop :=
  ∀ i : Instr, i.wellFormed = true → decode i.instrSet (encode i) = .ok i

/-- Each word that decodes is the word of the instruction it decodes to, which is well-formed and of the instruction set
asked for (R56: no other word is this instruction; R64, D6; log entries 13, 17). -/
def Obligations.EncodeOfDecodeIsIdentity : Prop :=
  ∀ (iset : InstrSet) (w : Word) (i : Instr), decode iset w = .ok i →
    encode i = w ∧ i.wellFormed = true ∧ i.instrSet = iset

/-- The words that decode are those of the opcode table's mask and match, less `cond` = 0b1111, `Rt` = 15 and in T32
`Rt` = 13 (30_encoding.md section 5, R52, R53, R64, D6; log entries 13, 17). -/
def Obligations.DecodesExactlyTheTableRows : Prop :=
  ∀ w : Word,
    ((∃ i, decode .a32 w = .ok i) ↔
      w &&& 0x0FFF0FFF#32 = 0x0E100F51#32 ∧ w.extractLsb' 28 4 ≠ 15#4 ∧ w.extractLsb' 12 4 ≠ 15#4) ∧
    ((∃ i, decode .t32 w = .ok i) ↔
      w &&& 0xFFFF0FFF#32 = 0xEE100F51#32 ∧ w.extractLsb' 12 4 ≠ 13#4 ∧ w.extractLsb' 12 4 ≠ 15#4)

/-- The words of 95_test_vectors.md section 2.5 decode to the reads written beside them. -/
def Obligations.SampleWordsDecode : Prop :=
  decode .a32 0xEE100F51#32 = .ok (.mrcA32 .al 0) ∧ decode .a32 0xEE103F51#32 = .ok (.mrcA32 .al 3) ∧
  decode .a32 0xEE10EF51#32 = .ok (.mrcA32 .al 14) ∧ decode .a32 0x1E100F51#32 = .ok (.mrcA32 .ne 0) ∧
  decode .t32 0xEE100F51#32 = .ok (.mrcT32 0) ∧ decode .t32 0xEE103F51#32 = .ok (.mrcT32 3)

/-- A word with bit 20 clear (an MCR, a write) is decoded as no instruction, in either instruction set (R55, D12;
log entry 17). -/
def Obligations.WritesAreNeverDecoded : Prop :=
  ∀ (iset : InstrSet) (w : Word), w.extractLsb' 20 1 = 0#1 → ∃ e, decode iset w = .error e

/-- An assembler line stands for the read exactly when its selector fields, `<opc2>` written, are those of ID_DFR0 and
its destination is admitted; an omitted `<opc2>` never does (R50, R51, C4, GK17; log entry 11). Which destinations are
admitted is the spec's decision, not R50 (R64, D6; log entry 17). -/
def Obligations.AssemblerLineMustWriteOpc2 : Prop :=
  ∀ (iset : InstrSet) (a : MrcAsm),
    ((∃ i, assemble iset a = some i) ↔
      a.coproc = 0b1111#4 ∧ a.opc1 = 0b000#3 ∧ a.crn = 0b0000#4 ∧ a.crm = 0b0001#4 ∧ a.opc2 = some 0b010#3 ∧
        a.rt ≠ 15#4 ∧ (iset = .t32 → a.rt ≠ 13#4)) ∧
    ∀ i, assemble iset a = some i → i.wellFormed = true ∧ i.instrSet = iset ∧ i.rt = a.rt

/-! ### The register -/

/-- R13: each field is four bits wide and stands at its range, the eight ranges cover the register, and the register is
the concatenation of its fields, which no two share. -/
def Obligations.FieldsTileTheRegister : Prop :=
  (∀ (v : Word) (k : Nat), k < 4 →
    (IdDfr0.TraceFilt v).getLsbD k = v.getLsbD (28 + k) ∧ (IdDfr0.PerfMon v).getLsbD k = v.getLsbD (24 + k) ∧
    (IdDfr0.MProfDbg v).getLsbD k = v.getLsbD (20 + k) ∧ (IdDfr0.MMapTrc v).getLsbD k = v.getLsbD (16 + k) ∧
    (IdDfr0.CopTrc v).getLsbD k = v.getLsbD (12 + k) ∧ (IdDfr0.MMapDbg v).getLsbD k = v.getLsbD (8 + k) ∧
    (IdDfr0.CopSDbg v).getLsbD k = v.getLsbD (4 + k) ∧ (IdDfr0.CopDbg v).getLsbD k = v.getLsbD (0 + k)) ∧
  (∀ v : Word, IdDfr0.ofFields (IdDfr0.TraceFilt v) (IdDfr0.PerfMon v) (IdDfr0.MProfDbg v) (IdDfr0.MMapTrc v)
    (IdDfr0.CopTrc v) (IdDfr0.MMapDbg v) (IdDfr0.CopSDbg v) (IdDfr0.CopDbg v) = v) ∧
  ∀ a b c d e f g h : Nibble,
    let v := IdDfr0.ofFields a b c d e f g h
    IdDfr0.TraceFilt v = a ∧ IdDfr0.PerfMon v = b ∧ IdDfr0.MProfDbg v = c ∧ IdDfr0.MMapTrc v = d ∧
      IdDfr0.CopTrc v = e ∧ IdDfr0.MMapDbg v = f ∧ IdDfr0.CopSDbg v = g ∧ IdDfr0.CopDbg v = h

/-- R17: the two conditions that forbid TraceFilt = 0b0000. -/
def Obligations.TraceFiltZeroIsForbidden : Prop :=
  ∀ (c : Config) (v : Word), IdDfr0.Permitted c v = true →
    (c.V8_MINOR ≥ 4 ∧ c.FEAT_ETMv4 = true → IdDfr0.TraceFilt v ≠ 0b0000#4) ∧
    (c.FEAT_ETE = true → IdDfr0.TraceFilt v ≠ 0b0000#4)

/-- No permitted value holds a reserved field value (R15, R18, R23 to R26, R28). -/
def Obligations.ReservedValuesAreNotPermitted : Prop :=
  ∀ (c : Config) (v : Word), IdDfr0.Permitted c v = true →
    IdDfr0.TraceFilt v ≤ 0b0001#4 ∧
    (IdDfr0.PerfMon v ≤ 0b1001#4 ∨ IdDfr0.PerfMon v = 0b1111#4) ∧
    IdDfr0.MProfDbg v ≤ 0b0001#4 ∧ IdDfr0.MMapTrc v ≤ 0b0001#4 ∧ IdDfr0.CopTrc v ≤ 0b0001#4 ∧
    (IdDfr0.MMapDbg v = 0b0000#4 ∨ IdDfr0.MMapDbg v = 0b0100#4 ∨ IdDfr0.MMapDbg v = 0b0101#4) ∧
    IdDfr0.CopDbg v ≠ 0b0001#4 ∧ IdDfr0.CopDbg v ≤ 0b1011#4

/-- R31: a permitted CopDbg of an Armv8-A implementation is one of the values left for its version; that each of them is
left is EveryVersionAdmitsEveryValueLeft. -/
def Obligations.CopDbgValuesLeftByVersion : Prop :=
  ∀ (c : Config) (v : Word), c.ARMV8A = true → IdDfr0.Permitted c v = true →
    0b0110#4 ≤ IdDfr0.CopDbg v ∧ IdDfr0.CopDbg v ≤ 0b1011#4 ∧
    (c.V8_MINOR ≥ 1 ∧ c.FEAT_Debugv8p1 = true → 0b0111#4 ≤ IdDfr0.CopDbg v) ∧
    (c.V8_MINOR ≥ 2 → 0b1000#4 ≤ IdDfr0.CopDbg v) ∧
    (c.V8_MINOR ≥ 4 → 0b1001#4 ≤ IdDfr0.CopDbg v) ∧
    (c.V8_MINOR ≥ 8 → 0b1010#4 ≤ IdDfr0.CopDbg v) ∧
    (c.V8_MINOR ≥ 9 → IdDfr0.CopDbg v = 0b1011#4)

/-- R33: a permitted PerfMon of an Armv8-A implementation is one of the values left for its features and version; that
each of them is left is EveryVersionAdmitsEveryValueLeft. -/
def Obligations.PerfMonValuesLeftByVersion : Prop :=
  ∀ (c : Config) (v : Word), c.ARMV8A = true → IdDfr0.Permitted c v = true →
    (c.FEAT_PMUv3 = false → IdDfr0.PerfMon v = 0b0000#4 ∨ IdDfr0.PerfMon v = 0b1111#4) ∧
    (c.FEAT_PMUv3 = true → 0b0011#4 ≤ IdDfr0.PerfMon v ∧ IdDfr0.PerfMon v ≤ 0b1001#4 ∧
      (c.V8_MINOR ≥ 1 → 0b0100#4 ≤ IdDfr0.PerfMon v) ∧
      (c.V8_MINOR ≥ 4 → 0b0101#4 ≤ IdDfr0.PerfMon v) ∧
      (c.V8_MINOR ≥ 5 → 0b0110#4 ≤ IdDfr0.PerfMon v) ∧
      (c.V8_MINOR ≥ 7 → 0b0111#4 ≤ IdDfr0.PerfMon v) ∧
      (c.V8_MINOR ≥ 8 → 0b1000#4 ≤ IdDfr0.PerfMon v) ∧
      (c.V8_MINOR ≥ 9 → IdDfr0.PerfMon v = 0b1001#4))

/-- CopSDbg carries no freedom of its own: zero without EL3 in Non-secure state (D15), CopDbg otherwise (R27, C2). -/
def Obligations.CopSDbgIsDetermined : Prop :=
  ∀ (c : Config) (v : Word), IdDfr0.Permitted c v = true →
    (c.HAVE_EL3 = false ∧ c.NOEL3_STATE = .nonSecure → IdDfr0.CopSDbg v = 0b0000#4) ∧
    (¬(c.HAVE_EL3 = false ∧ c.NOEL3_STATE = .nonSecure) → IdDfr0.CopSDbg v = IdDfr0.CopDbg v)

/-- A software test of a permitted value never reports a feature the implementation lacks: PerfMon under the alternative
scheme and CopDbg under the standard scheme (R19, R29; the schemes are GK6, GK7, log entry 12). -/
def Obligations.VersionTestsReportOnlyImplementedFeatures : Prop :=
  ∀ (c : Config) (v : Word), IdDfr0.Permitted c v = true →
    (IdDfr0.alternativeScheme (IdDfr0.PerfMon v) 0b0011#4 = true → c.FEAT_PMUv3 = true) ∧
    (IdDfr0.alternativeScheme (IdDfr0.PerfMon v) 0b0100#4 = true → c.FEAT_PMUv3p1 = true) ∧
    (IdDfr0.alternativeScheme (IdDfr0.PerfMon v) 0b0101#4 = true → c.FEAT_PMUv3p4 = true) ∧
    (IdDfr0.alternativeScheme (IdDfr0.PerfMon v) 0b0110#4 = true → c.FEAT_PMUv3p5 = true) ∧
    (IdDfr0.alternativeScheme (IdDfr0.PerfMon v) 0b0111#4 = true → c.FEAT_PMUv3p7 = true) ∧
    (IdDfr0.alternativeScheme (IdDfr0.PerfMon v) 0b1000#4 = true → c.FEAT_PMUv3p8 = true) ∧
    (IdDfr0.alternativeScheme (IdDfr0.PerfMon v) 0b1001#4 = true → c.FEAT_PMUv3p9 = true) ∧
    (IdDfr0.standardScheme (IdDfr0.CopDbg v) 0b0111#4 = true → c.FEAT_Debugv8p1 = true) ∧
    (IdDfr0.standardScheme (IdDfr0.CopDbg v) 0b1000#4 = true → c.FEAT_Debugv8p2 = true) ∧
    (IdDfr0.standardScheme (IdDfr0.CopDbg v) 0b1001#4 = true → c.FEAT_Debugv8p4 = true) ∧
    (IdDfr0.standardScheme (IdDfr0.CopDbg v) 0b1010#4 = true → c.FEAT_Debugv8p8 = true) ∧
    (IdDfr0.standardScheme (IdDfr0.CopDbg v) 0b1011#4 = true → c.FEAT_Debugv8p9 = true)

/-- The other direction of R31 and R33: each value they leave is reported by an admitted configuration of its version.
`n` is the version, `d` a CopDbg value R31 leaves beside FEAT_Debugv8p1 = `q` (so beside R29's first line), `p` a PerfMon
value R33 leaves beside FEAT_PMUv3 = `b`, `a` a TraceFilt value R17 leaves beside FEAT_ETMv4 = `etm` and FEAT_ETE = `ete`;
MMapTrc and CopTrc take both their values (R24, R25), EL3 is implemented or not in either Security state (R27), and the
register is present. -/
def Obligations.EveryVersionAdmitsEveryValueLeft : Prop :=
  ∀ (n : Nat) (haveEL3 q b etm ete : Bool) (noEL3 : SecurityState) (a p m t d : Nibble),
    a ≤ 0b0001#4 → (n ≥ 4 ∧ etm = true → a ≠ 0b0000#4) → (ete = true → a ≠ 0b0000#4) →
    m ≤ 0b0001#4 → t ≤ 0b0001#4 →
    (b = false → p = 0b0000#4 ∨ p = 0b1111#4) →
    (b = true → 0b0011#4 ≤ p ∧ p ≤ 0b1001#4 ∧ (n ≥ 1 → 0b0100#4 ≤ p) ∧ (n ≥ 4 → 0b0101#4 ≤ p) ∧
      (n ≥ 5 → 0b0110#4 ≤ p) ∧ (n ≥ 7 → 0b0111#4 ≤ p) ∧ (n ≥ 8 → 0b1000#4 ≤ p) ∧ (n ≥ 9 → p = 0b1001#4)) →
    0b0110#4 ≤ d → d ≤ 0b1011#4 → (n ≥ 1 ∧ q = true → 0b0111#4 ≤ d) → (0b0111#4 ≤ d → q = true) →
    (n ≥ 2 → 0b1000#4 ≤ d) → (n ≥ 4 → 0b1001#4 ≤ d) → (n ≥ 8 → 0b1010#4 ≤ d) → (n ≥ 9 → d = 0b1011#4) →
    ∃ c : Config, IdDfr0.admitted c = true ∧ c.V8_MINOR = n ∧ c.HAVE_EL3 = haveEL3 ∧ c.NOEL3_STATE = noEL3 ∧
      c.FEAT_AA32EL1 = true ∧ c.FEAT_Debugv8p1 = q ∧ c.FEAT_PMUv3 = b ∧ c.FEAT_ETMv4 = etm ∧ c.FEAT_ETE = ete ∧
      IdDfr0.TraceFilt c.ID_DFR0 = a ∧ IdDfr0.PerfMon c.ID_DFR0 = p ∧ IdDfr0.MMapTrc c.ID_DFR0 = m ∧
      IdDfr0.CopTrc c.ID_DFR0 = t ∧ IdDfr0.CopDbg c.ID_DFR0 = d

/-- R32: `Permitted` holds exactly when the listed conditions hold, the value lists and the conditions of R16, R17, R19,
R20, R22, R23, R26, R27, R29 and R30 written out as the spec writes them (ranges as lists of values). The readings in them
are the spec's own (D4, D14, D15; log entry 18). -/
def Obligations.PermittedExactlyWhenItsConditionsHold : Prop :=
  ∀ (c : Config) (v : Word),
    let traceFilt := IdDfr0.TraceFilt v
    let perfMon := IdDfr0.PerfMon v
    let copDbg := IdDfr0.CopDbg v
    IdDfr0.Permitted c v = true ↔
      (traceFilt ∈ [0b0000#4, 0b0001#4] ∧
        perfMon ∈ [0b0000#4, 0b0001#4, 0b0010#4, 0b0011#4, 0b0100#4, 0b0101#4, 0b0110#4, 0b0111#4, 0b1000#4, 0b1001#4,
          0b1111#4] ∧
        IdDfr0.MProfDbg v ∈ [0b0000#4, 0b0001#4] ∧ IdDfr0.MMapTrc v ∈ [0b0000#4, 0b0001#4] ∧
        IdDfr0.CopTrc v ∈ [0b0000#4, 0b0001#4] ∧ IdDfr0.MMapDbg v ∈ [0b0000#4, 0b0100#4, 0b0101#4] ∧
        copDbg ∈ [0b0000#4, 0b0010#4, 0b0011#4, 0b0100#4, 0b0101#4, 0b0110#4, 0b0111#4, 0b1000#4, 0b1001#4, 0b1010#4,
          0b1011#4]) ∧
      ((traceFilt = 0b0001#4 ↔ c.FEAT_TRF = true) ∧ (c.V8_MINOR ≥ 4 ∧ c.FEAT_ETMv4 = true → traceFilt ≠ 0b0000#4) ∧
        (c.FEAT_ETE = true → traceFilt ≠ 0b0000#4)) ∧
      ((perfMon ∈ [0b0011#4, 0b0100#4, 0b0101#4, 0b0110#4, 0b0111#4, 0b1000#4, 0b1001#4] → c.FEAT_PMUv3 = true) ∧
        (perfMon ∈ [0b0100#4, 0b0101#4, 0b0110#4, 0b0111#4, 0b1000#4, 0b1001#4] → c.FEAT_PMUv3p1 = true) ∧
        (perfMon ∈ [0b0101#4, 0b0110#4, 0b0111#4, 0b1000#4, 0b1001#4] → c.FEAT_PMUv3p4 = true) ∧
        (perfMon ∈ [0b0110#4, 0b0111#4, 0b1000#4, 0b1001#4] → c.FEAT_PMUv3p5 = true) ∧
        (perfMon ∈ [0b0111#4, 0b1000#4, 0b1001#4] → c.FEAT_PMUv3p7 = true) ∧
        (perfMon ∈ [0b1000#4, 0b1001#4] → c.FEAT_PMUv3p8 = true) ∧
        (perfMon = 0b1001#4 → c.FEAT_PMUv3p9 = true)) ∧
      ((c.ARMV8A = true → perfMon ∉ [0b0001#4, 0b0010#4]) ∧
        (c.FEAT_PMUv3 = true ∧ c.V8_MINOR ≥ 1 → perfMon ≠ 0b0011#4) ∧
        (c.FEAT_PMUv3 = true ∧ c.V8_MINOR ≥ 4 → perfMon ≠ 0b0100#4) ∧
        (c.FEAT_PMUv3 = true ∧ c.V8_MINOR ≥ 5 → perfMon ≠ 0b0101#4) ∧
        (c.FEAT_PMUv3 = true ∧ c.V8_MINOR ≥ 7 → perfMon ≠ 0b0110#4) ∧
        (c.FEAT_PMUv3 = true ∧ c.V8_MINOR ≥ 8 → perfMon ≠ 0b0111#4) ∧
        (c.FEAT_PMUv3 = true ∧ c.V8_MINOR ≥ 9 → perfMon ≠ 0b1000#4) ∧
        (c.FEAT_PMUv3 = true → perfMon ∉ [0b0000#4, 0b1111#4])) ∧
      ((c.ARMV8A = true → IdDfr0.MProfDbg v = 0b0000#4) ∧ (c.ARMV8A = true → IdDfr0.MMapDbg v = 0b0000#4)) ∧
      IdDfr0.CopSDbg v = (if c.HAVE_EL3 = false ∧ c.NOEL3_STATE = .nonSecure then 0b0000#4 else copDbg) ∧
      ((copDbg ∈ [0b0111#4, 0b1000#4, 0b1001#4, 0b1010#4, 0b1011#4] → c.FEAT_Debugv8p1 = true) ∧
        (copDbg ∈ [0b1000#4, 0b1001#4, 0b1010#4, 0b1011#4] → c.FEAT_Debugv8p2 = true) ∧
        (copDbg ∈ [0b1001#4, 0b1010#4, 0b1011#4] → c.FEAT_Debugv8p4 = true) ∧
        (copDbg ∈ [0b1010#4, 0b1011#4] → c.FEAT_Debugv8p8 = true) ∧
        (copDbg = 0b1011#4 → c.FEAT_Debugv8p9 = true)) ∧
      ((c.ARMV8A = true → copDbg ∉ [0b0000#4, 0b0010#4, 0b0011#4, 0b0100#4, 0b0101#4]) ∧
        (c.V8_MINOR ≥ 1 ∧ c.FEAT_Debugv8p1 = true → copDbg ≠ 0b0110#4) ∧
        (c.V8_MINOR ≥ 2 → copDbg ∉ [0b0110#4, 0b0111#4]) ∧ (c.V8_MINOR ≥ 4 → copDbg ≠ 0b1000#4) ∧
        (c.V8_MINOR ≥ 8 → copDbg ≠ 0b1001#4) ∧ (c.V8_MINOR ≥ 9 → copDbg ≠ 0b1010#4))

/-! ### The read, when its condition passes -/

/-- R60: the access pseudocode, branch by branch in its own order, for both forms and every admitted destination. Where
the read writes, the whole next state is given: all 32 bits to `x[t]`, and no flag or other state. -/
def Obligations.ReadFollowsTheAccessPseudocode : Prop :=
  ∀ (i : Instr) (s : State) (t : Fin 15), i.wellFormed = true → i.rt.toNat = t → s.conditionPasses i = true →
    let c := s.cfg
    let x := s.ctx
    let hstr64 := x.EL2Enabled = true ∧ c.FEAT_AA64EL2 = true ∧ x.EL2UsingAArch32 = false ∧ x.HSTR_EL2_T0 = 1#1
    let hstr32 := x.EL2Enabled = true ∧ c.FEAT_AA32EL2 = true ∧ x.EL2UsingAArch32 = true ∧ x.HSTR_T0 = 1#1
    let hcr64 := x.EL2Enabled = true ∧ c.FEAT_AA64EL2 = true ∧ x.EL2UsingAArch32 = false ∧ x.HCR_EL2_TID3 = 1#1
    let hcr32 := x.EL2Enabled = true ∧ c.FEAT_AA32EL2 = true ∧ x.EL2UsingAArch32 = true ∧ x.HCR_TID3 = 1#1
    let write := Host.Outcome.next { s with x := s.x.set t c.ID_DFR0 }
    (c.FEAT_AA32EL1 = false → exec i s = .fault .undefined) ∧
    (c.FEAT_AA32EL1 = true → x.EL = .EL0 → exec i s = .fault .undefined) ∧
    (c.FEAT_AA32EL1 = true → x.EL = .EL1 →
      (hstr64 → exec i s = .fault (.trapToAArch64 .EL2 0x03)) ∧
      (¬hstr64 → hstr32 → exec i s = .fault (.hypTrap 0x03)) ∧
      (¬hstr64 → ¬hstr32 → hcr64 → exec i s = .fault (.trapToAArch64 .EL2 0x03)) ∧
      (¬hstr64 → ¬hstr32 → ¬hcr64 → hcr32 → exec i s = .fault (.hypTrap 0x03)) ∧
      (¬hstr64 → ¬hstr32 → ¬hcr64 → ¬hcr32 → exec i s = write)) ∧
    (c.FEAT_AA32EL1 = true → x.EL = .EL2 → exec i s = write) ∧
    (c.FEAT_AA32EL1 = true → x.EL = .EL3 → exec i s = write)

/-- The A32 form completes, with this next state, wherever the access rule allows the read and the form's condition
passes on the flags (R60, R61, R64; the condition table is log entry 5, the admitted destinations log entry 17). -/
def Obligations.A32ReadCompletes : Prop :=
  ∀ (c : Cond) (rt : Nibble) (s : State) (t : Fin 15), rt.toNat = t →
    conditionHolds c s.flags = true → readAllowed s.cfg s.ctx = true →
    exec (.mrcA32 c rt) s = .next { s with x := s.x.set t s.cfg.ID_DFR0 }

/-- The T32 form completes, with this next state, wherever the access rule allows the read, outside an IT block or under
a block's condition that passes (R60, R61, R64; the IT block is log entry 7, the admitted destinations log entry 17). -/
def Obligations.T32ReadCompletes : Prop :=
  ∀ (rt : Nibble) (s : State) (t : Fin 15), rt.toNat = t → rt ≠ 13#4 →
    (s.itBlock = [] ∨ ∃ c rest, s.itBlock = c :: rest ∧ conditionHolds c s.flags = true) →
    readAllowed s.cfg s.ctx = true →
    exec (.mrcT32 rt) s = .next { s with x := s.x.set t s.cfg.ID_DFR0 }

/-- R70: `Undefined` is raised in exactly two cases, the register absent or the level EL0. -/
def Obligations.UndefinedExactlyWhenAbsentOrEL0 : Prop :=
  ∀ (i : Instr) (s : State), i.wellFormed = true → s.conditionPasses i = true →
    (exec i s = .fault .undefined ↔
      s.cfg.FEAT_AA32EL1 = false ∨ (s.cfg.FEAT_AA32EL1 = true ∧ s.ctx.EL = .EL0))

/-- R71: the trap to an AArch64 EL2 is raised exactly under its conditions, with the arguments EL2 and 0x03. -/
def Obligations.TrapToAArch64EL2ExactlyWhen : Prop :=
  ∀ (i : Instr) (s : State), i.wellFormed = true → s.conditionPasses i = true →
    (exec i s = .fault (.trapToAArch64 .EL2 0x03) ↔
      s.cfg.FEAT_AA32EL1 = true ∧ s.ctx.EL = .EL1 ∧ s.ctx.EL2Enabled = true ∧ s.cfg.FEAT_AA64EL2 = true ∧
        s.ctx.EL2UsingAArch32 = false ∧ (s.ctx.HSTR_EL2_T0 = 1#1 ∨ s.ctx.HCR_EL2_TID3 = 1#1))

/-- R72: the Hyp trap is raised exactly under its conditions, with the argument 0x03. -/
def Obligations.HypTrapExactlyWhen : Prop :=
  ∀ (i : Instr) (s : State), i.wellFormed = true → s.conditionPasses i = true →
    (exec i s = .fault (.hypTrap 0x03) ↔
      s.cfg.FEAT_AA32EL1 = true ∧ s.ctx.EL = .EL1 ∧ s.ctx.EL2Enabled = true ∧ s.cfg.FEAT_AA32EL2 = true ∧
        s.ctx.EL2UsingAArch32 = true ∧ (s.ctx.HSTR_T0 = 1#1 ∨ s.ctx.HCR_TID3 = 1#1))

/-- R11: without FEAT_AA32EL1 the read is UNDEFINED at every level and whatever value stands where the register would
be. -/
def Obligations.AbsentRegisterReadIsUndefined : Prop :=
  ∀ (i : Instr) (s : State) (v : Word), i.wellFormed = true → s.conditionPasses i = true →
    s.cfg.FEAT_AA32EL1 = false → exec i (s.withIdDfr0 v) = .fault .undefined

/-- R76: either control bit of the EL2 regime in use turns an EL1 read into that regime's trap; a read at EL0 is
`Undefined`; a trap happens at EL1 and with EL2 enabled only, so never at EL2 or EL3, and to EL2 only, so never to EL1 or
EL3. The last two clauses hold of every instruction, its condition passed or not. -/
def Obligations.OnlyEL1ReadsTrapToEL2 : Prop :=
  (∀ (i : Instr) (s : State), i.wellFormed = true → s.conditionPasses i = true → s.cfg.FEAT_AA32EL1 = true →
    s.ctx.EL = .EL1 → s.ctx.EL2Enabled = true →
    (s.cfg.FEAT_AA64EL2 = true → s.ctx.EL2UsingAArch32 = false →
      s.ctx.HSTR_EL2_T0 = 1#1 ∨ s.ctx.HCR_EL2_TID3 = 1#1 → exec i s = .fault (.trapToAArch64 .EL2 0x03)) ∧
    (s.cfg.FEAT_AA32EL2 = true → s.ctx.EL2UsingAArch32 = true →
      s.ctx.HSTR_T0 = 1#1 ∨ s.ctx.HCR_TID3 = 1#1 → exec i s = .fault (.hypTrap 0x03))) ∧
  (∀ (i : Instr) (s : State), i.wellFormed = true → s.conditionPasses i = true → s.ctx.EL = .EL0 →
    exec i s = .fault .undefined) ∧
  ∀ (i : Instr) (s : State),
    (∀ el n, exec i s = .fault (.trapToAArch64 el n) → el = .EL2 ∧ s.ctx.EL = .EL1 ∧ s.ctx.EL2Enabled = true) ∧
    (∀ n, exec i s = .fault (.hypTrap n) → s.ctx.EL = .EL1 ∧ s.ctx.EL2Enabled = true)

/-- R73: the only faults there are, of any instruction in any state. -/
def Obligations.FaultsAreTheThreeOutcomes : Prop :=
  ∀ (i : Instr) (s : State) (f : Fault), exec i s = .fault f →
    f = .undefined ∨ f = .trapToAArch64 .EL2 0x03 ∨ f = .hypTrap 0x03

/-- R61: the pseudocode's interleaved chain and the decision table are one function. -/
def Obligations.PseudocodeEqualsDecisionTable : Prop :=
  ∀ (cfg : Config) (ctx : Context) (t : Fin 15), readID_DFR0 cfg ctx t = readID_DFR0_table cfg ctx t

/-- R60 corner case (e): the trap controls of the EL2 regime not in use do not matter. -/
def Obligations.WrongRegimeControlsAreIgnored : Prop :=
  ∀ (cfg : Config) (ctx : Context) (t : Fin 15) (a b : Bit),
    (ctx.EL2UsingAArch32 = false →
      readID_DFR0 cfg { ctx with HSTR_T0 := a, HCR_TID3 := b } t = readID_DFR0 cfg ctx t) ∧
    (ctx.EL2UsingAArch32 = true →
      readID_DFR0 cfg { ctx with HSTR_EL2_T0 := a, HCR_EL2_TID3 := b } t = readID_DFR0 cfg ctx t)

/-- R64, D6: a destination the spec does not admit has no meaning, in any state: 15 in both forms, 13 in T32
(log entry 17). -/
def Obligations.UnadmittedDestinationsAreRefused : Prop :=
  ∀ (i : Instr) (s : State), i.wellFormed = false → exec i s = .refused .destinationNotAdmitted

/-! ### The read, when its condition fails (GK10; log entries 5, 6, 7) -/

/-- R65: a read whose condition fails is a no-operation where it would have written. Where the access rule would have
raised an outcome, whether that same outcome is still raised is the implementation's: for Undefined
failedConditionUndefined alone decides, for either trap failedConditionTraps alone, and a read not raised is a
no-operation. The no-operation and the two fields are the model's choice (log entry 6), as is the condition table (log
entries 5, 7). -/
def Obligations.FailedConditionIsNoOperation : Prop :=
  ∀ (i : Instr) (s : State), i.wellFormed = true → s.conditionPasses i = false →
    (readAllowed s.cfg s.ctx = true → exec i s = .next s) ∧
    (readAllowed s.cfg s.ctx = false → ∃ f, ∀ t, readID_DFR0 s.cfg s.ctx t = .raises f) ∧
    ∀ t,
      (readID_DFR0 s.cfg s.ctx t = .raises .undefined →
        exec i s = if s.cfg.failedConditionUndefined = true then .fault .undefined else .next s) ∧
      (∀ el n, readID_DFR0 s.cfg s.ctx t = .raises (.trapToAArch64 el n) →
        exec i s = if s.cfg.failedConditionTraps = true then .fault (.trapToAArch64 el n) else .next s) ∧
      (∀ n, readID_DFR0 s.cfg s.ctx t = .raises (.hypTrap n) →
        exec i s = if s.cfg.failedConditionTraps = true then .fault (.hypTrap n) else .next s)

/-- R65 (D13): an instruction that has no condition is executed. That AL always passes is the model's condition table (log
entry 5), and that a T32 form with an empty IT block has no condition is the model's IT block (log entry 7). -/
def Obligations.UnconditionalFormsPass : Prop :=
  ∀ (rt : Nibble) (s : State), s.conditionPasses (.mrcA32 .al rt) = true ∧
    (s.itBlock = [] → s.conditionPasses (.mrcT32 rt) = true)

/-! ### What the read leaves unchanged -/

/-- R63: an instruction that completes changes at most `x[t]`: the configuration (ID_DFR0 in it), the context, every other
register, the flags, the instruction set, the IT block, the program counter and the supplied words stay. That this holds
of a read whose condition failed is the model's choice (log entry 6). -/
def Obligations.ReadChangesOnlyItsDestination : Prop :=
  ∀ (i : Instr) (s s' : State), exec i s = .next s' →
    s'.cfg = s.cfg ∧ s'.ctx = s.ctx ∧ s'.flags = s.flags ∧ s'.iset = s.iset ∧ s'.itBlock = s.itBlock ∧
      s'.pc = s.pc ∧ s'.supply = s.supply ∧
      ∀ r : Fin 15, (r : Nat) ≠ i.rt.toNat → s'.readReg r = s.readReg r

/-- R43: reading twice is reading once. A read whose condition failed is the model's no-operation (log entry 6). -/
def Obligations.ReadingTwiceIsReadingOnce : Prop :=
  ∀ (i : Instr) (s s' : State), exec i s = .next s' → exec i s' = .next s'

/-- R60 corner case (f): the old value of the destination does not matter to a read whose condition passes. -/
def Obligations.OldDestinationValueIsIrrelevant : Prop :=
  ∀ (i : Instr) (s : State) (t : Fin 15) (v : Word), i.wellFormed = true → i.rt.toNat = t →
    s.conditionPasses i = true →
    (readAllowed s.cfg s.ctx = true → exec i (s.writeReg t v) = exec i s) ∧
    ∀ f, exec i (s.writeReg t v) = .fault f ↔ exec i s = .fault f

/-- R42, R12: bit `k` of ID_DFR0 becomes bit `k` of `x[t]`, and that is bit `k` of ID_DFR0_EL1. -/
def Obligations.EveryBitIsCopied : Prop :=
  ∀ (i : Instr) (s s' : State) (t : Fin 15), i.rt.toNat = t → s.conditionPasses i = true → exec i s = .next s' →
    ∀ k < 32, (s'.readReg t).getLsbD k = s.cfg.ID_DFR0.getLsbD k ∧
      (s'.readReg t).getLsbD k = (IdDfr0.ID_DFR0_EL1_low s'.cfg).getLsbD k

/-- R66, R79: on an admitted configuration the read completes where it is allowed, and the fields software then finds in
`x[t]` tell it the truth about the implementation: TraceFilt about FEAT_TRF (R16), PerfMon under the alternative scheme
(GK7, log entry 12) about FEAT_PMUv3 (R22), CopDbg at least the Armv8 debug architecture (R31), and zero in the two
fields that are not Armv8-A's (R23, R26). -/
def Obligations.SoftwareLearnsTheImplementedFeatures : Prop :=
  ∀ (i : Instr) (s : State) (t : Fin 15), s.Inv = true → i.wellFormed = true → i.rt.toNat = t →
    s.conditionPasses i = true → readAllowed s.cfg s.ctx = true →
    ∃ s', exec i s = .next s' ∧
      (IdDfr0.TraceFilt (s'.readReg t) = 1#4 ↔ s.cfg.FEAT_TRF = true) ∧
      (IdDfr0.alternativeScheme (IdDfr0.PerfMon (s'.readReg t)) 0b0011#4 = true ↔ s.cfg.FEAT_PMUv3 = true) ∧
      IdDfr0.standardScheme (IdDfr0.CopDbg (s'.readReg t)) 0b0110#4 = true ∧
      IdDfr0.MProfDbg (s'.readReg t) = 0#4 ∧ IdDfr0.MMapDbg (s'.readReg t) = 0#4

/-- What a reader who may not read cannot learn: with the read not allowed, or its condition failed, two machines that
differ in ID_DFR0 alone answer alike, and their next states differ in ID_DFR0 alone (R60, R75). What a failed condition
does is the model's choice (log entry 6). -/
def Obligations.ForbiddenReadLearnsNothing : Prop :=
  ∀ (i : Instr) (s : State) (v : Word), readAllowed s.cfg s.ctx = false ∨ s.conditionPasses i = false →
    exec i (s.withIdDfr0 v) = mapNext (fun s' => s'.withIdDfr0 v) (exec i s)

/-! ### The step -/

/-- A step runs the decoded instruction and then moves past it: 4 bytes on, and in T32 one place on in the IT block
(D8, GK12; log entries 7, 8, 9, 21). -/
def Obligations.StepRunsTheDecodedInstruction : Prop :=
  ∀ (s : State) (w : Word) (i : Instr), IdDfr0.admitted s.cfg = true → s.fetch = some w → decode s.iset w = .ok i →
    step s = mapNext (fun s' => { s' with
      pc := s'.pc + 4#32, itBlock := if s'.iset = .t32 then s'.itBlock.tail else s'.itBlock }) (exec i s)

/-- A step on a state of the invariant that has a read to run and may read completes, whatever the registers hold and
whether the condition passes or not: software has nothing to initialise (R82; log entries 6, 8, 9, 21). -/
def Obligations.StepCompletesWhereReadIsAllowed : Prop :=
  ∀ (s : State) (w : Word) (i : Instr) (x : Vector Word 15), s.Inv = true → s.fetch = some w →
    decode s.iset w = .ok i → readAllowed s.cfg s.ctx = true → Completes (step { s with x := x })

/-- A word placed with `withFetchWord` is what the next step runs (log entries 9, 10, 21). -/
def Obligations.PlacedWordRunsNext : Prop :=
  ∀ (s : State) (nbits w : Nat) (i : Instr), IdDfr0.admitted s.cfg = true → decodeTableWord nbits w = some i →
    step (s.withFetchWord nbits w) = mapNext State.advance (exec i (s.withFetchWord nbits w))

/-- R32, D17: a step on a configuration the model does not admit is refused by name. -/
def Obligations.UnadmittedConfigurationIsRefused : Prop :=
  ∀ s : State, IdDfr0.admitted s.cfg = false →
    step s = .refused .notArmv8A ∨ step s = .refused .configurationNotPermitted

/-- What a step that completes changes: the program counter moves 4 bytes on, one register at most is written and then
with ID_DFR0, and the configuration, the context (the level and the trap controls), the flags, the instruction set and
the supplied words stay (R14, R36, R37, R63). That a step leaves the whole context, and the program counter, are the
model's (log entries 15, 8). -/
def Obligations.StepChangesAtMostOneRegister : Prop :=
  ∀ s s' : State, step s = .next s' →
    s'.pc = s.pc + 4#32 ∧ s'.cfg = s.cfg ∧ s'.ctx = s.ctx ∧ s'.flags = s.flags ∧ s'.iset = s.iset ∧
      s'.supply = s.supply ∧
      (s'.x = s.x ∨ ∃ t : Fin 15, s'.x = s.x.set t s.cfg.ID_DFR0)

/-- R77, whole machine: no step at EL0 changes a register. An executed read is Undefined there; the steps that complete are
reads whose condition failed, and that these write nothing is the model's choice (log entry 6). -/
def Obligations.NoRegisterIsWrittenAtEL0 : Prop :=
  ∀ s s' : State, s.ctx.EL = .EL0 → step s = .next s' → s'.x = s.x

/-- Every step keeps the invariant: an admitted configuration (R32) and the canonical form of the supply. -/
def Obligations.StepKeepsInv : Prop :=
  ∀ s s' : State, s.Inv = true → step s = .next s' → s'.Inv = true

/-- The invariant holds after reset (the configuration after reset is log entry 2). -/
def Obligations.ResetHasInv : Prop := State.reset.Inv = true

/-- The whole state after reset: the register is `cfg.ID_DFR0` (R34); which configuration that is (CFG_A, its
unused NOEL3_STATE nonSecure), and every other value, is the model's choice (log entries 2, 3, 4). -/
def Obligations.ResetState : Prop :=
  State.reset.cfg = Config.cfgA ∧ State.reset.cfg.ID_DFR0 = 0x03000066#32 ∧
    State.reset.ctx.EL = .EL3 ∧ State.reset.ctx.EL2Enabled = false ∧ State.reset.ctx.EL2UsingAArch32 = false ∧
    State.reset.ctx.HSTR_EL2_T0 = 0#1 ∧ State.reset.ctx.HSTR_T0 = 0#1 ∧ State.reset.ctx.HCR_EL2_TID3 = 0#1 ∧
    State.reset.ctx.HCR_TID3 = 0#1 ∧ State.reset.flags = ⟨false, false, false, false⟩ ∧ State.reset.iset = .a32 ∧
    State.reset.itBlock = [] ∧ State.reset.pc = 0#32 ∧ State.reset.supply = [] ∧
    ∀ r : Fin 15, State.reset.readReg r = 0#32

/-- R14, R34: along any run, from any state, ID_DFR0 and the level never change, and a register that was written holds
ID_DFR0: two reads always agree. That the context, the level among it, stays the same over several steps is the model's
(log entries 15, 20); R14 and R34 speak of ID_DFR0 alone. -/
def Obligations.ReadsAgreeAlongEveryRun : Prop :=
  ∀ (k : Nat) (s s' : State), Sys2Proof.core.run k s = .next s' →
    s'.cfg = s.cfg ∧ s'.ctx = s.ctx ∧ s'.flags = s.flags ∧ s'.supply = s.supply ∧
      ∀ r : Fin 15, s'.readReg r = s.readReg r ∨ s'.readReg r = s.cfg.ID_DFR0

/-- On an admitted configuration a supplied word that does not decode is refused with the decoder's reason (R55, R56,
D12), and so is an address with no word supplied (D9); the refusals and the fetch are the model's (log entries 9, 17, 21). -/
def Obligations.StepRefusesWhatIsNotTheRead : Prop :=
  ∀ s : State, IdDfr0.admitted s.cfg = true →
    (∀ (w : Word) (e : DecodeError), s.fetch = some w → decode s.iset w = .error e →
      step s = .refused (.notIdDfr0Read e)) ∧
    (s.fetch = none → step s = .refused .noInstructionSupplied)
end

