-- ==== Sys2Proof/Tests/Slice0.lean ====
section
/-! SUPPORT. Tests. Expected results are those of spec/95_test_vectors.md (section in each docstring) or worked by hand
from the rule named; the last part shows, for every statement with hypotheses, data that meet them together. -/

namespace Sys2Proof.Tests

open Sys2Proof Sys2Proof.Machine

/-! ### Helpers -/

def nextOf : Host.Outcome State Fault Refusal → Option State
  | .next s => some s
  | .fault _ => none
  | .refused _ => none

def faultOf : Host.Outcome State Fault Refusal → Option Fault
  | .next _ => none
  | .fault f => some f
  | .refused _ => none

def refusalOf : Host.Outcome State Fault Refusal → Option Refusal
  | .next _ => none
  | .fault _ => none
  | .refused r => some r

/-- Data in a register after an outcome that is a next state. -/
def regOf (o : Host.Outcome State Fault Refusal) (t : Fin 15) : Option Word := (nextOf o).map (·.readReg t)

theorem next_of_nextOf {o : Host.Outcome State Fault Refusal} {s : State} (h : nextOf o = some s) : o = .next s := by
  cases o <;> simp_all [nextOf]

theorem fault_of_faultOf {o : Host.Outcome State Fault Refusal} {f : Fault} (h : faultOf o = some f) : o = .fault f := by
  cases o <;> simp_all [faultOf]

/-- The configurations of section 2.2; CFG_A is `Config.cfgA`. Where a row says "(unused)", NOEL3_STATE is nonSecure (log
entry 2). -/
def cfgB : Config :=
  { Config.cfgA with ID_DFR0 := 0x04011088#32, V8_MINOR := 2, FEAT_ETMv4 := true, FEAT_PMUv3p1 := true
                     FEAT_Debugv8p1 := true, FEAT_Debugv8p2 := true }
def cfgC : Config :=
  { Config.cfgA with ID_DFR0 := 0x15001009#32, V8_MINOR := 4, HAVE_EL3 := false, NOEL3_STATE := .nonSecure
                     FEAT_TRF := true, FEAT_ETMv4 := true, FEAT_PMUv3p1 := true, FEAT_PMUv3p4 := true
                     FEAT_Debugv8p1 := true, FEAT_Debugv8p2 := true, FEAT_Debugv8p4 := true }
/-- Every feature of the PerfMon and CopDbg families, and FEAT_TRF. -/
def allFeatures (c : Config) : Config :=
  { c with FEAT_TRF := true, FEAT_PMUv3 := true, FEAT_PMUv3p1 := true, FEAT_PMUv3p4 := true, FEAT_PMUv3p5 := true
           FEAT_PMUv3p7 := true, FEAT_PMUv3p8 := true, FEAT_PMUv3p9 := true, FEAT_Debugv8p1 := true
           FEAT_Debugv8p2 := true, FEAT_Debugv8p4 := true, FEAT_Debugv8p8 := true, FEAT_Debugv8p9 := true }
def cfgD : Config :=
  allFeatures { Config.cfgA with ID_DFR0 := 0x190010BB#32, V8_MINOR := 9, HAVE_EL3 := false, NOEL3_STATE := .secure
                                 FEAT_ETE := true }
def cfgE : Config := { Config.cfgA with ID_DFR0 := 0x0F000066#32, FEAT_PMUv3 := false }
def cfgF : Config :=
  { Config.cfgA with ID_DFR0 := 0x04011066#32, V8_MINOR := 1, FEAT_ETMv4 := true, FEAT_PMUv3p1 := true }
def cfgG : Config := { Config.cfgA with ID_DFR0 := 0x03000006#32, HAVE_EL3 := false, NOEL3_STATE := .nonSecure }

/-- A context in the column order of section 2.4. -/
def ctx (el : ExceptionLevel) (en aa32 : Bool) (hstr64 hstr32 hcr64 hcr32 : Bit) : Context :=
  { EL := el, EL2Enabled := en, EL2UsingAArch32 := aa32, HSTR_EL2_T0 := hstr64, HSTR_T0 := hstr32
    HCR_EL2_TID3 := hcr64, HCR_TID3 := hcr32 }

/-- A state with every register holding a marker. -/
def st (c : Config) (x : Context) : State :=
  { State.reset with cfg := c, ctx := x, x := Vector.replicate 15 0xAAAAAAAA#32 }

def el1 : Context := ctx .EL1 false false 0 0 0 0

/-! ### Well-formedness: each check refuses an ill-formed term (40_mrc_id_dfr0.md R64) -/

theorem test_wellFormed_a32_rt15 : (Instr.mrcA32 .al 15).wellFormed = false := by decide
theorem test_wellFormed_t32_rt13 : (Instr.mrcT32 13).wellFormed = false := by decide
theorem test_wellFormed_t32_rt15 : (Instr.mrcT32 15).wellFormed = false := by decide
theorem test_wellFormed_admitted :
    (Instr.mrcA32 .al 13).wellFormed = true ∧ (Instr.mrcT32 14).wellFormed = true := by decide

/-! ### Decoding (section 2.5; words written out bit by bit from 30_encoding.md R52, R53) -/

theorem test_decode_a32_bits :
    decode .a32 0b1110_1110_000_1_0000_0101_1111_010_1_0001#32 = .ok (.mrcA32 .al 5) := by decide
theorem test_decode_t32_bits :
    decode .t32 0b1110_1110_000_1_0000_1100_1111_010_1_0001#32 = .ok (.mrcT32 12) := by decide
theorem test_decode_sample_words :
    decode .a32 0xEE100F51#32 = .ok (.mrcA32 .al 0) ∧ decode .a32 0xEE10EF51#32 = .ok (.mrcA32 .al 14)
      ∧ decode .a32 0x1E100F51#32 = .ok (.mrcA32 .ne 0) ∧ decode .t32 0xEE103F51#32 = .ok (.mrcT32 3)
      ∧ decode .a32 0xEE10DF51#32 = .ok (.mrcA32 .al 13) := by decide
/-- The near misses of section 2.5, each with the reason written beside it there. -/
theorem test_decode_near_misses :
    decode .a32 0xEE000F51#32 = .error .writeNotGiven ∧ decode .a32 0xEE100F31#32 = .error .otherRegister
      ∧ decode .a32 0xEE100F71#32 = .error .otherRegister ∧ decode .a32 0xEE100F50#32 = .error .otherRegister
      ∧ decode .a32 0xEE110F51#32 = .error .otherRegister ∧ decode .a32 0xEE300F51#32 = .error .otherRegister
      ∧ decode .a32 0xEE100E51#32 = .error .otherRegister ∧ decode .a32 0xEE10FF51#32 = .error .destinationNotAdmitted
      ∧ decode .a32 0xFE100F51#32 = .error .condReserved ∧ decode .t32 0xEE10DF51#32 = .error .destinationNotAdmitted := by
  decide
theorem test_encode_words :
    encode (.mrcA32 .ne 0) = 0x1E100F51#32 ∧ encode (.mrcA32 .al 14) = 0xEE10EF51#32
      ∧ encode (.mrcT32 3) = 0xEE103F51#32 := by decide
/-- The opcode table's two rows (30_encoding.md section 5), free bits zero. -/
theorem test_decodeTableWord :
    decodeTableWord 32 0x0E100F51 = some (.mrcA32 .eq 0) ∧ decodeTableWord 32 0xEE100F51 = some (.mrcT32 0)
      ∧ decodeTableWord 32 0xEE000F51 = none := by decide
/-- `MRC p15, 0, r3, c0, c1, 2` (section 2.5), and the same with `<opc2>` left out (90_conflicts.md C4). -/
theorem test_assemble :
    (assemble .a32 ⟨none, none, 15, 0, 3, 0, 1, some 2⟩).map encode = some 0xEE103F51#32
      ∧ assemble .a32 ⟨none, none, 15, 0, 3, 0, 1, none⟩ = none := by decide

/-! ### The register (sections 2.1 to 2.3) -/

def fields (v : Word) : List Nibble :=
  [IdDfr0.TraceFilt v, IdDfr0.PerfMon v, IdDfr0.MProfDbg v, IdDfr0.MMapTrc v, IdDfr0.CopTrc v, IdDfr0.MMapDbg v,
   IdDfr0.CopSDbg v, IdDfr0.CopDbg v]

theorem test_fields :
    fields 0x04011088#32 = [0, 4, 0, 1, 1, 0, 8, 8] ∧ fields 0x190010BB#32 = [1, 9, 0, 0, 1, 0, 0xB, 0xB]
      ∧ fields 0x12345678#32 = [1, 2, 3, 4, 5, 6, 7, 8] ∧ fields 0xFEDCBA98#32 = [0xF, 0xE, 0xD, 0xC, 0xB, 0xA, 9, 8] := by
  decide

theorem test_permitted_passes :
    [Config.cfgA, cfgB, cfgC, cfgD, cfgE, cfgF, cfgG].all IdDfr0.admitted = true := by decide

theorem test_permitted_fails :
    [{ Config.cfgA with ID_DFR0 := 0x02000066#32 }, { Config.cfgA with ID_DFR0 := 0x03000076#32 },
     { Config.cfgA with ID_DFR0 := 0x03000006#32 }, { Config.cfgA with V8_MINOR := 1 },
     { Config.cfgA with ID_DFR0 := 0x03100066#32 }, { Config.cfgA with ID_DFR0 := 0x03000466#32 },
     { Config.cfgA with ID_DFR0 := 0x0A000066#32 }, { Config.cfgA with ID_DFR0 := 0x23000066#32 },
     { Config.cfgA with ID_DFR0 := 0x030000CC#32 }, { Config.cfgA with ID_DFR0 := 0x13000066#32 },
     { Config.cfgA with ID_DFR0 := 0x00000066#32 }, { Config.cfgA with ID_DFR0 := 0x03000077#32 },
     { cfgE with ID_DFR0 := 0x03000066#32 }, { cfgB with ID_DFR0 := 0x04011066#32 },
     { cfgF with FEAT_Debugv8p1 := true }, { cfgC with ID_DFR0 := 0x05001009#32, FEAT_TRF := false },
     { cfgD with ID_DFR0 := 0x090010BB#32, FEAT_TRF := false }, { cfgD with ID_DFR0 := 0x180010BB#32 },
     { cfgD with ID_DFR0 := 0x190010AA#32 }].all (fun c => !IdDfr0.Permitted c c.ID_DFR0) = true := by decide

/-- The values that pass, with every feature true, at a version: CopDbg beside PerfMon 9, PerfMon beside CopDbg 11. -/
def valuesLeft (n : Nat) : List Nat × List Nat :=
  let c := allFeatures { Config.cfgA with V8_MINOR := n }
  ((List.range 16).filter fun k => IdDfr0.Permitted c (IdDfr0.ofFields 1 9 0 0 0 0 (BitVec.ofNat 4 k) (BitVec.ofNat 4 k)),
   (List.range 16).filter fun k => IdDfr0.Permitted c (IdDfr0.ofFields 1 (BitVec.ofNat 4 k) 0 0 0 0 11 11))

/-- Last table of section 2.3. -/
theorem test_values_left_per_version :
    valuesLeft 0 = ([6, 7, 8, 9, 10, 11], [3, 4, 5, 6, 7, 8, 9]) ∧ valuesLeft 1 = ([7, 8, 9, 10, 11], [4, 5, 6, 7, 8, 9])
      ∧ valuesLeft 3 = ([8, 9, 10, 11], [4, 5, 6, 7, 8, 9]) ∧ valuesLeft 4 = ([9, 10, 11], [5, 6, 7, 8, 9])
      ∧ valuesLeft 6 = ([9, 10, 11], [6, 7, 8, 9]) ∧ valuesLeft 7 = ([9, 10, 11], [7, 8, 9])
      ∧ valuesLeft 8 = ([10, 11], [8, 9]) ∧ valuesLeft 10 = ([11], [9]) := by decide +kernel

/-! ### The access rule (section 2.4) -/

def wA : ReadOutcome := .write 0 0x03000066#32
def trap64 : Fault := .trapToAArch64 .EL2 0x03
def hyp : Fault := .hypTrap 0x03

/-- Vectors 1 to 22, in order. -/
theorem test_read_vectors :
    let r := fun (c : Config) (x : Context) => readID_DFR0 c x 0
    let A := Config.cfgA
    [r A (ctx .EL1 false false 0 0 0 0), r A (ctx .EL1 true false 0 0 0 0), r A (ctx .EL1 true false 1 0 0 0),
     r A (ctx .EL1 true false 0 0 1 0), r A (ctx .EL1 true false 1 0 1 0), r A (ctx .EL1 true false 0 1 0 1),
     r A (ctx .EL1 true true 0 1 0 0), r A (ctx .EL1 true true 0 0 0 1), r A (ctx .EL1 true true 1 0 1 0),
     r A (ctx .EL1 false false 1 1 1 1), r { A with FEAT_AA64EL2 := false } (ctx .EL1 true false 0 0 1 0),
     r { A with FEAT_AA32EL2 := false } (ctx .EL1 true true 0 0 0 1), r A (ctx .EL0 false false 0 0 0 0),
     r A (ctx .EL0 true false 0 0 1 0), r A (ctx .EL2 true true 1 1 1 1), r A (ctx .EL3 true false 1 1 1 1),
     r { A with FEAT_AA32EL1 := false } (ctx .EL0 true false 0 0 1 0),
     r { A with FEAT_AA32EL1 := false } (ctx .EL1 true false 0 0 1 0),
     r { A with FEAT_AA32EL1 := false } (ctx .EL2 false false 0 0 0 0),
     r { A with FEAT_AA32EL1 := false } (ctx .EL3 false false 0 0 0 0),
     readID_DFR0 A (ctx .EL1 false false 0 0 0 0) 14, r cfgD (ctx .EL2 true true 0 0 0 0)] =
    [wA, wA, .raises trap64, .raises trap64, .raises trap64, wA, .raises hyp, .raises hyp, wA, wA, wA, wA,
     .raises .undefined, .raises .undefined, wA, wA, .raises .undefined, .raises .undefined, .raises .undefined,
     .raises .undefined, .write 14 0x03000066#32, .write 0 0x190010BB#32] := by decide

def bools : List Bool := [false, true]
def bits : List Bit := [0, 1]

/-- The outcomes over all 2048 combinations of features, level, EL2 state and control bits. -/
def allOutcomes : List ReadOutcome :=
  bools.flatMap fun f1 => bools.flatMap fun f32 => bools.flatMap fun f64 =>
  [ExceptionLevel.EL0, .EL1, .EL2, .EL3].flatMap fun el => bools.flatMap fun en => bools.flatMap fun aa32 =>
  bits.flatMap fun a => bits.flatMap fun b => bits.flatMap fun c => bits.map fun d =>
    readID_DFR0 { Config.cfgA with FEAT_AA32EL1 := f1, FEAT_AA32EL2 := f32, FEAT_AA64EL2 := f64 } (ctx el en aa32 a b c d) 0

/-- Whole-function check of section 2.4: 1280 `Undefined`, 720 `Write`, 24 of each trap. -/
theorem test_read_counts :
    (allOutcomes.count (.raises .undefined), allOutcomes.count wA, allOutcomes.count (.raises trap64),
      allOutcomes.count (.raises hyp)) = (1280, 720, 24, 24) := by decide +kernel

/-! ### One step (programs 1, 3, 4, 5, 6 of section 3, first instruction; GK10 for a failed condition) -/

theorem test_program1 :
    regOf (step ((st Config.cfgA el1).withFetchWord 32 0xEE100F51)) 0 = some 0x03000066#32
      ∧ regOf (step ((st Config.cfgA el1).withFetchWord 32 0xEE100F51)) 1 = some 0xAAAAAAAA#32 := by decide
theorem test_program3 :
    faultOf (step ((st cfgB (ctx .EL1 true false 0 0 1 0)).withFetchWord 32 0xEE101F51)) = some trap64 := by decide
theorem test_program4 :
    faultOf (step ((st Config.cfgA (ctx .EL0 true true 1 1 1 1)).withFetchWord 32 0xEE100F51)) = some .undefined := by
  decide
theorem test_program5 :
    faultOf (step ((st cfgC (ctx .EL1 true true 0 1 0 0)).withFetchWord 32 0xEE103F51)) = some hyp
      ∧ regOf (step ((st cfgC (ctx .EL1 true true 0 0 0 0)).withFetchWord 32 0xEE103F51)) 3 = some 0x15001009#32 := by
  decide
theorem test_program6 :
    faultOf (step ((st { Config.cfgA with FEAT_AA32EL1 := false } (ctx .EL3 false false 0 0 0 0)).withFetchWord 32
      0xEE100F51)) = some .undefined := by decide
/-- MRCNE (section 2.5) with Z set: a no-operation, and the program counter 4 on (GK10, GK12). -/
theorem test_failed_condition :
    nextOf (execMrcA32 .ne 0 { st Config.cfgA el1 with flags := ⟨false, true, false, false⟩ })
      = some { st Config.cfgA el1 with flags := ⟨false, true, false, false⟩ } := by decide
/-- A T32 read in an IT block uses up one place of the block. -/
theorem test_it_block_advances :
    (nextOf (step ({ st Config.cfgA el1 with itBlock := [.eq, .ne] }.withFetchWord 32 0xEE103F51))).map
      (fun s => (s.readReg 3, s.itBlock, s.pc)) = some (0xAAAAAAAA#32, [.ne], 4#32) := by decide
theorem test_step_refusals :
    refusalOf (step State.reset) = some .noInstructionSupplied
      ∧ refusalOf (step ((st Config.cfgA el1).withFetchWord 32 0xEE000F51)) = some (.notIdDfr0Read .writeNotGiven)
      ∧ refusalOf (step ((st { Config.cfgA with ID_DFR0 := 0x02000066#32 } el1).withFetchWord 32 0xEE100F51))
          = some .configurationNotPermitted
      ∧ refusalOf (execMrcT32 13 (st Config.cfgA el1)) = some .destinationNotAdmitted := by decide

/-- Each row's word runs as the first instruction after reset: A32 under EQ with Z clear (a no-operation), T32 reads. -/
theorem test_reset_runs_both_rows :
    regOf (step (State.reset.withFetchWord 32 0x0E100F51)) 0 = some 0#32
      ∧ regOf (step (State.reset.withFetchWord 32 0xEE100F51)) 0 = some 0x03000066#32 := by decide

/-! ### Witnesses: data that meet a statement's hypotheses together, clause by clause

A witness is named after its statement. Shared ones: witness_ReadFollowsTheAccessPseudocode also for
UndefinedExactlyWhenAbsentOrEL0, TrapToAArch64EL2ExactlyWhen and HypTrapExactlyWhen; witness_read_allowed for
OldDestinationValueIsIrrelevant and SoftwareLearnsTheImplementedFeatures; witness_exec_next for
ReadChangesOnlyItsDestination, ReadingTwiceIsReadingOnce and EveryBitIsCopied; witness_permitted_clauses for
TraceFiltZeroIsForbidden, CopSDbgIsDetermined and ReservedValuesAreNotPermitted; witness_versions for
CopDbgValuesLeftByVersion and PerfMonValuesLeftByVersion; witness_step for StepRunsTheDecodedInstruction,
StepCompletesWhereReadIsAllowed, PlacedWordRunsNext, StepChangesAtMostOneRegister, StepKeepsInv and
ReadsAgreeAlongEveryRun; test_reset_runs_both_rows shows the empty IT block of UnconditionalFormsPass. -/

/-- The EL1 state in which every hypothesis of the reading statements holds, for both forms at the highest register. -/
theorem witness_read_allowed :
    (st Config.cfgA el1).Inv = true ∧ readAllowed (st Config.cfgA el1).cfg (st Config.cfgA el1).ctx = true
      ∧ (Instr.mrcA32 .al 14).wellFormed = true ∧ (Instr.mrcA32 .al 14).rt.toNat = ((14 : Fin 15) : Nat)
      ∧ (st Config.cfgA el1).conditionPasses (.mrcA32 .al 14) = true
      ∧ (Instr.mrcT32 14).wellFormed = true ∧ (Instr.mrcT32 14).rt.toNat = ((14 : Fin 15) : Nat)
      ∧ (st Config.cfgA el1).conditionPasses (.mrcT32 14) = true := by decide

theorem witness_DecodeOfEncodeIsIdentity :
    (Instr.mrcA32 .le 14).wellFormed = true ∧ (Instr.mrcT32 12).wellFormed = true := by decide

theorem witness_EncodeOfDecodeIsIdentity : decode .a32 0xDE10EF51#32 = .ok (.mrcA32 .le 14) := by decide

theorem witness_WritesAreNeverDecoded : (0xEE000F51#32).extractLsb' 20 1 = 0#1 := by decide

theorem witness_AssemblerLineMustWriteOpc2 :
    assemble .t32 ⟨some .eq, some .wide, 15, 0, 12, 0, 1, some 2⟩ = some (.mrcT32 12) := by decide

/-- The two clauses of TraceFiltZeroIsForbidden and of CopSDbgIsDetermined; data of ReservedValuesAreNotPermitted. -/
theorem witness_permitted_clauses :
    (IdDfr0.Permitted cfgC cfgC.ID_DFR0 = true ∧ cfgC.V8_MINOR ≥ 4 ∧ cfgC.FEAT_ETMv4 = true)
      ∧ (IdDfr0.Permitted cfgD cfgD.ID_DFR0 = true ∧ cfgD.FEAT_ETE = true)
      ∧ (cfgC.HAVE_EL3 = false ∧ cfgC.NOEL3_STATE = .nonSecure)
      ∧ ¬(cfgD.HAVE_EL3 = false ∧ cfgD.NOEL3_STATE = .nonSecure) := by decide

/-- At the highest values every test of VersionTestsReportOnlyImplementedFeatures succeeds. -/
theorem witness_VersionTestsReportOnlyImplementedFeatures :
    IdDfr0.Permitted cfgD cfgD.ID_DFR0 = true
      ∧ (∀ k ∈ [3#4, 4#4, 5#4, 6#4, 7#4, 8#4, 9#4], IdDfr0.alternativeScheme (IdDfr0.PerfMon cfgD.ID_DFR0) k = true)
      ∧ ∀ k ∈ [7#4, 8#4, 9#4, 10#4, 11#4], IdDfr0.standardScheme (IdDfr0.CopDbg cfgD.ID_DFR0) k = true := by decide

/-- Armv8-A configurations at the lowest version of each clause, with every feature. -/
theorem witness_versions :
    (∀ n ∈ [0, 1, 2, 4, 5, 7, 8, 9],
      IdDfr0.admitted (allFeatures { Config.cfgA with V8_MINOR := n, ID_DFR0 := 0x190000BB#32 }) = true)
      ∧ IdDfr0.admitted cfgE = true ∧ cfgE.FEAT_PMUv3 = false := by decide

/-- The hypotheses of EveryVersionAdmitsEveryValueLeft, in its order. -/
def valuesLeftBy (n : Nat) (q b etm ete : Bool) (a p m t d : Nibble) : Bool :=
  decide (a ≤ 1#4) && decide (n ≥ 4 ∧ etm = true → a ≠ 0#4) && decide (ete = true → a ≠ 0#4) && decide (m ≤ 1#4)
    && decide (t ≤ 1#4) && decide (b = false → p = 0#4 ∨ p = 15#4)
    && decide (b = true → 3#4 ≤ p ∧ p ≤ 9#4 ∧ (n ≥ 1 → 4#4 ≤ p) ∧ (n ≥ 4 → 5#4 ≤ p) ∧ (n ≥ 5 → 6#4 ≤ p) ∧
      (n ≥ 7 → 7#4 ≤ p) ∧ (n ≥ 8 → 8#4 ≤ p) ∧ (n ≥ 9 → p = 9#4))
    && decide (6#4 ≤ d) && decide (d ≤ 11#4) && decide (n ≥ 1 ∧ q = true → 7#4 ≤ d) && decide (7#4 ≤ d → q = true)
    && decide (n ≥ 2 → 8#4 ≤ d) && decide (n ≥ 4 → 9#4 ≤ d) && decide (n ≥ 8 → 10#4 ≤ d) && decide (n ≥ 9 → d = 11#4)

/-- Version 9 with the one CopDbg and PerfMon value left, version 1 with CopDbg 6 and PerfMon 4, PerfMon 15 without
FEAT_PMUv3, and the lowest values at versions 3, 4, 5, 7 and 8. -/
theorem witness_EveryVersionAdmitsEveryValueLeft :
    (valuesLeftBy 9 true true true true 1 9 1 1 11 && valuesLeftBy 1 false true true false 0 4 0 1 6
      && valuesLeftBy 0 true false true false 0 15 1 0 6 && valuesLeftBy 3 true true true false 0 4 0 0 8
      && valuesLeftBy 4 true true false false 0 5 0 0 9 && valuesLeftBy 5 true true false false 0 6 0 0 9
      && valuesLeftBy 7 true true false false 0 7 0 0 9 && valuesLeftBy 8 true true false false 0 8 0 0 10) = true := by
  decide

/-- Each branch of the pseudocode is reached by a read whose condition passes. -/
theorem witness_ReadFollowsTheAccessPseudocode :
    (∀ c ∈ [Config.cfgA, { Config.cfgA with FEAT_AA32EL1 := false }],
      (st c el1).conditionPasses (.mrcA32 .al 0) = true ∧ (st c el1).conditionPasses (.mrcT32 0) = true)
      ∧ [ctx .EL0 true false 1 1 1 1, ctx .EL1 true false 1 0 0 0, ctx .EL1 true true 0 1 0 0, ctx .EL1 true false 0 0 1 0,
         ctx .EL1 true true 0 0 0 1, ctx .EL1 true false 0 1 0 1, ctx .EL2 true true 1 1 1 1, ctx .EL3 true true 1 1 1 1].map
          (fun x => (faultOf (exec (.mrcA32 .al 0) (st Config.cfgA x)), regOf (exec (.mrcT32 0) (st Config.cfgA x)) 0)) =
        [(some .undefined, none), (some trap64, none), (some hyp, none), (some trap64, none), (some hyp, none),
         (none, some 0x03000066#32), (none, some 0x03000066#32), (none, some 0x03000066#32)] := by decide

theorem witness_A32ReadCompletes :
    ((14 : Nibble).toNat = ((14 : Fin 15) : Nat)) ∧ conditionHolds .ne (st Config.cfgA el1).flags = true
      ∧ readAllowed Config.cfgA el1 = true := by decide

/-- Outside an IT block, and in one whose condition passes. -/
theorem witness_T32ReadCompletes :
    (st Config.cfgA el1).itBlock = [] ∧ { st Config.cfgA el1 with itBlock := [.ne] }.itBlock = Cond.ne :: []
      ∧ conditionHolds .ne (st Config.cfgA el1).flags = true
      ∧ ((12 : Nibble).toNat = ((12 : Fin 15) : Nat)) ∧ (12 : Nibble) ≠ 13#4 ∧ readAllowed Config.cfgA el1 = true := by decide

theorem witness_AbsentRegisterReadIsUndefined :
    (st { Config.cfgA with FEAT_AA32EL1 := false } el1).conditionPasses (.mrcA32 .al 0) = true
      ∧ (st { Config.cfgA with FEAT_AA32EL1 := false } el1).cfg.FEAT_AA32EL1 = false := by decide

/-- Both trap clauses of the first part, the EL0 clause, and a fault of each kind for the last two. -/
theorem witness_OnlyEL1ReadsTrapToEL2 :
    (st Config.cfgA (ctx .EL0 true false 0 0 1 0)).conditionPasses (.mrcT32 14) = true ∧
    (st Config.cfgA (ctx .EL1 true false 0 0 1 0)).conditionPasses (.mrcT32 14) = true
      ∧ faultOf (exec (.mrcT32 14) (st Config.cfgA (ctx .EL1 true false 0 0 1 0))) = some (.trapToAArch64 .EL2 0x03)
      ∧ faultOf (exec (.mrcT32 14) (st Config.cfgA (ctx .EL1 true true 0 0 0 1))) = some (.hypTrap 0x03) := by decide

theorem witness_FaultsAreTheThreeOutcomes :
    exec (.mrcA32 .al 0) (st Config.cfgA (ctx .EL0 false false 0 0 0 0)) = .fault .undefined :=
  fault_of_faultOf (by decide)

theorem witness_WrongRegimeControlsAreIgnored :
    (ctx .EL1 true false 0 1 0 1).EL2UsingAArch32 = false ∧ (ctx .EL1 true true 1 0 1 0).EL2UsingAArch32 = true := by
  decide

theorem witness_UnadmittedDestinationsAreRefused :
    (Instr.mrcA32 .al 15).wellFormed = false ∧ (Instr.mrcT32 13).wellFormed = false
      ∧ (Instr.mrcT32 15).wellFormed = false := by decide

/-- A read whose condition fails: whether it passes, whether the read is allowed, the access rule's outcome, the fault. -/
def failedRead (c : Config) (x : Context) : Bool × Bool × ReadOutcome × Option Fault :=
  ((st c x).conditionPasses (.mrcA32 .eq 0), readAllowed c x, readID_DFR0 c x 0, faultOf (exec (.mrcA32 .eq 0) (st c x)))

/-- A failed condition where the read is allowed; and, with exactly one of the two fields true, under each of the three
outcomes: the field of that outcome alone decides. -/
theorem witness_FailedConditionIsNoOperation :
    [Config.cfgA, { Config.cfgA with failedConditionUndefined := true }, { Config.cfgA with failedConditionTraps := true }].map
      (fun c => [el1, ctx .EL0 false false 0 0 0 0, ctx .EL1 true false 1 0 0 0, ctx .EL1 true true 0 0 0 1].map (failedRead c)) =
    [[(false, true, wA, none), (false, false, .raises .undefined, none), (false, false, .raises trap64, none),
      (false, false, .raises hyp, none)],
     [(false, true, wA, none), (false, false, .raises .undefined, some .undefined), (false, false, .raises trap64, none),
      (false, false, .raises hyp, none)],
     [(false, true, wA, none), (false, false, .raises .undefined, none), (false, false, .raises trap64, some trap64),
      (false, false, .raises hyp, some hyp)]] := by decide

/-- An instruction that completes with its condition passed, and one with its condition failed. -/
theorem witness_exec_next :
    exec (.mrcA32 .al 14) (st Config.cfgA el1) = .next ((st Config.cfgA el1).writeReg 14 0x03000066#32)
      ∧ exec (.mrcA32 .eq 14) (st Config.cfgA el1) = .next (st Config.cfgA el1) :=
  ⟨next_of_nextOf (by decide), next_of_nextOf (by decide)⟩

theorem witness_ForbiddenReadLearnsNothing :
    readAllowed Config.cfgA (ctx .EL0 false false 0 0 0 0) = false
      ∧ (st Config.cfgA el1).conditionPasses (.mrcA32 .eq 0) = false := by decide

/-- The state of program 1, its word placed: the hypotheses of the step statements. -/
theorem witness_step :
    let s := (st Config.cfgA el1).withFetchWord 32 0xEE100F51
    IdDfr0.admitted s.cfg = true ∧ s.Inv = true ∧ readAllowed s.cfg s.ctx = true ∧ s.fetch = some 0xEE100F51#32 ∧ decode s.iset 0xEE100F51#32 = .ok (.mrcT32 0)
      ∧ decodeTableWord 32 0xEE100F51 = some (.mrcT32 0)
      ∧ step s = .next (s.writeReg 0 0x03000066#32).advance
      ∧ Sys2Proof.core.run 1 s = .next (s.writeReg 0 0x03000066#32).advance := by
  have h : step ((st Config.cfgA el1).withFetchWord 32 0xEE100F51)
      = .next (((st Config.cfgA el1).withFetchWord 32 0xEE100F51).writeReg 0 0x03000066#32).advance :=
    next_of_nextOf (by decide)
  refine ⟨by decide, by decide, by decide, by decide, by decide, by decide, h, ?_⟩
  simp only [Host.Core.run, Sys2Proof.core, h]

theorem witness_UnadmittedConfigurationIsRefused :
    IdDfr0.admitted { Config.cfgA with ARMV8A := false } = false
      ∧ IdDfr0.admitted { Config.cfgA with ID_DFR0 := 0x02000066#32 } = false := by decide

/-- A step at EL0 that completes: a read whose condition fails. -/
theorem witness_NoRegisterIsWrittenAtEL0 :
    (nextOf (step ((st Config.cfgA (ctx .EL0 false false 0 0 0 0)).withFetchWord 32 0x0E100F51))).isSome = true := by decide

/-- Both clauses: a word that does not decode, and no word. -/
theorem witness_StepRefusesWhatIsNotTheRead :
    let s := (st Config.cfgA el1).withFetchWord 32 0xEE100F31
    (IdDfr0.admitted s.cfg = true ∧ s.fetch = some 0xEE100F31#32 ∧ decode s.iset 0xEE100F31#32 = .error .otherRegister)
      ∧ IdDfr0.admitted State.reset.cfg = true ∧ State.reset.fetch = none := by decide

end Sys2Proof.Tests
end

section
/-! PROOFS. What a step and a run can change (10_state.md R14, R34, R36, R37; 40_mrc_id_dfr0.md R63), and the invariant
along every run. -/

namespace Sys2Proof.Machine

/-! ### One step -/

/-- The two states a completing step can lead to: the instruction wrote nothing, or one register with ID_DFR0. -/
theorem step_next_state {s s' : State} (h : step s = .next s') :
    s' = s.advance ∨ ∃ t, s' = (s.writeReg t s.cfg.ID_DFR0).advance := by
  obtain ⟨-, w, i, s1, -, -, hexec, rfl⟩ := step_next h
  obtain ⟨-, rfl⟩ | ⟨-, -, t, -, rfl⟩ := exec_next hexec
  · exact .inl rfl
  · exact .inr ⟨t, rfl⟩

/-- Writing ID_DFR0 to a register leaves every register as it was or holding ID_DFR0. -/
theorem readReg_writeReg_or (s : State) (t r : Fin 15) (v : Word) :
    (s.writeReg t v).readReg r = s.readReg r ∨ (s.writeReg t v).readReg r = v := by
  by_cases hr : r = t
  · subst hr
    exact .inr (readReg_writeReg_same s r v)
  · exact .inl (readReg_writeReg_other s v hr)

/-- Settles O39: either state of `step_next_state` differs in these fields alone. -/
theorem stepChangesAtMostOneRegister : Obligations.StepChangesAtMostOneRegister := by
  intro s s' h
  obtain rfl | ⟨t, rfl⟩ := step_next_state h
  · exact ⟨rfl, rfl, rfl, rfl, rfl, rfl, .inl rfl⟩
  · exact ⟨rfl, rfl, rfl, rfl, rfl, rfl, .inr ⟨t, rfl⟩⟩

/-! ### The invariant -/

/-- The invariant looks at the configuration and the supply alone. -/
theorem inv_congr {s s' : State} (hcfg : s'.cfg = s.cfg) (hsupply : s'.supply = s.supply) : s'.Inv = s.Inv := by
  rw [State.Inv, State.Inv, hcfg, hsupply]

/-- Settles O41: a step leaves both things the invariant looks at. -/
theorem stepKeepsInv : Obligations.StepKeepsInv := by
  intro s s' hinv h
  obtain ⟨-, hcfg, -, -, -, hsupply, -⟩ := stepChangesAtMostOneRegister s s' h
  rw [inv_congr hcfg hsupply, hinv]

/-- Settles O42: CFG_A is admitted, and no word is supplied after reset. -/
theorem resetHasInv : Obligations.ResetHasInv := by
  have hcfg : IdDfr0.admitted Config.cfgA = true := by decide
  have hsupply : supplyWf [] = true := rfl
  exact Bool.and_eq_true_iff.2 ⟨hcfg, hsupply⟩

/-- Settles O38: the two ways a configuration is not admitted are the step's first two tests. -/
theorem unadmittedConfigurationIsRefused : Obligations.UnadmittedConfigurationIsRefused := by
  intro s hadm
  cases hv8 : s.cfg.ARMV8A with
  | false => exact .inl (by rw [step, if_pos hv8])
  | true =>
    have hperm : IdDfr0.Permitted s.cfg s.cfg.ID_DFR0 = false := by simpa [IdDfr0.admitted, hv8] using hadm
    exact .inr (by rw [step, if_neg (by simp [hv8]), if_pos hperm])

/-! ### Any number of steps -/

/-- A run of one step more is a step and then the run. -/
theorem run_succ_next {k : Nat} {s s' : State} (h : Sys2Proof.core.run (k + 1) s = .next s') :
    ∃ s1, step s = .next s1 ∧ Sys2Proof.core.run k s1 = .next s' := by
  simp only [Host.Core.run, Sys2Proof.core] at h
  split at h
  · next s1 h1 => exact ⟨s1, h1, h⟩
  · cases h
  · cases h

/-- What every step keeps, every run keeps. -/
theorem run_keeps {P : State → Prop} (hstep : ∀ s s', P s → step s = .next s' → P s') :
    ∀ (k : Nat) {s s' : State}, P s → Sys2Proof.core.run k s = .next s' → P s'
  | 0, s, s', hP, h => by
    cases h
    exact hP
  | k + 1, s, s', hP, h => by
    obtain ⟨s1, h1, hrest⟩ := run_succ_next h
    exact run_keeps hstep k (hstep s s1 hP h1) hrest

/-- `s'` can be reached from `s` by reads of ID_DFR0 alone: what a read cannot write is equal, and each register is as it
was or holds ID_DFR0 (10_state.md R14, R34). -/
structure AfterReads (s s' : State) : Prop where
  cfg : s'.cfg = s.cfg
  ctx : s'.ctx = s.ctx
  flags : s'.flags = s.flags
  supply : s'.supply = s.supply
  readReg : ∀ r : Fin 15, s'.readReg r = s.readReg r ∨ s'.readReg r = s.cfg.ID_DFR0

theorem AfterReads.refl (s : State) : AfterReads s s := ⟨rfl, rfl, rfl, rfl, fun _ => .inl rfl⟩

theorem AfterReads.trans {s s1 s' : State} (h : AfterReads s s1) (h' : AfterReads s1 s') : AfterReads s s' where
  cfg := h'.cfg.trans h.cfg
  ctx := h'.ctx.trans h.ctx
  flags := h'.flags.trans h.flags
  supply := h'.supply.trans h.supply
  readReg r := by
    obtain hold | hnew := h'.readReg r
    · rw [hold]
      exact h.readReg r
    · exact .inr (by rw [hnew, h.cfg])

theorem afterReads_of_step {s s' : State} (h : step s = .next s') : AfterReads s s' := by
  obtain rfl | ⟨t, rfl⟩ := step_next_state h
  · exact ⟨rfl, rfl, rfl, rfl, fun _ => .inl rfl⟩
  · exact ⟨rfl, rfl, rfl, rfl, fun r => readReg_writeReg_or s t r s.cfg.ID_DFR0⟩

/-- Settles O44: `AfterReads` of the first state holds at the start and every step keeps it. -/
theorem readsAgreeAlongEveryRun : Obligations.ReadsAgreeAlongEveryRun := by
  intro k s s' h
  have hreads : AfterReads s s' :=
    run_keeps (fun _ _ hs h1 => hs.trans (afterReads_of_step h1)) k (AfterReads.refl s) h
  exact ⟨hreads.cfg, hreads.ctx, hreads.flags, hreads.supply, hreads.readReg⟩

/-! ### A read where the register is absent -/

/-- Whether a condition passes does not depend on ID_DFR0. -/
@[simp] theorem conditionPasses_withIdDfr0 (s : State) (v : Word) (i : Instr) :
    (s.withIdDfr0 v).conditionPasses i = s.conditionPasses i := by
  cases i <;> rfl

/-- Without FEAT_AA32EL1 the access rule raises Undefined whatever the context (10_state.md R11). -/
theorem readID_DFR0_absent {cfg : Config} (ctx : Context) (t : Fin 15) (h : cfg.FEAT_AA32EL1 = false) :
    readID_DFR0 cfg ctx t = .raises .undefined := by
  simp [readID_DFR0, h]

/-- Settles O21: another value in ID_DFR0 changes neither the condition nor the feature the first test looks at. -/
theorem absentRegisterReadIsUndefined : Obligations.AbsentRegisterReadIsUndefined := by
  intro i s v hw hp habsent
  obtain ⟨t, -, hd⟩ := wellFormed_destination i hw
  have hp' : (s.withIdDfr0 v).conditionPasses i = true := by rwa [conditionPasses_withIdDfr0]
  have habsent' : (s.withIdDfr0 v).cfg.FEAT_AA32EL1 = false := habsent
  rw [exec_of_passes hd hp', readID_DFR0_absent _ t habsent', State.finish, takeException]

end Sys2Proof.Machine
end

section
/-! PROOFS. The fields of ID_DFR0 (10_state.md R13). -/

namespace Sys2Proof.Machine.IdDfr0

/-- Bit `k` of the four bits at `pos`. -/
theorem getLsbD_nibbleAt (v : Word) (pos : Nat) {k : Nat} (hk : k < 4) :
    (v.extractLsb' pos 4 : Nibble).getLsbD k = v.getLsbD (pos + k) := by
  simp [hk]

/-- The register is the concatenation of its fields. -/
theorem ofFields_fields (v : Word) :
    ofFields (TraceFilt v) (PerfMon v) (MProfDbg v) (MMapTrc v) (CopTrc v) (MMapDbg v) (CopSDbg v) (CopDbg v) = v := by
  apply BitVec.eq_of_getLsbD_eq
  intro i hi
  simp only [getLsbD_ofFields, TraceFilt, PerfMon, MProfDbg, MMapTrc, CopTrc, MMapDbg, CopSDbg, CopDbg, getLsbD_placeAt,
    BitVec.getLsbD_extractLsb']
  interval_cases i <;> simp

/-- Four bits taken where four bits were placed are those bits. -/
theorem nibbleAt_placeAt_same (f : Nibble) {pos : Nat} (hpos : pos + 4 ≤ 32) :
    (placeAt pos f).extractLsb' pos 4 = f := by
  apply BitVec.eq_of_getLsbD_eq
  intro k hk
  have hlt : pos + k < 32 := by omega
  rw [BitVec.getLsbD_extractLsb', getLsbD_placeAt]
  simp [hk, hlt]

/-- Four bits taken below or above where four bits were placed are zero. -/
theorem nibbleAt_placeAt_disjoint (f : Nibble) {pos low : Nat} (h : low + 4 ≤ pos ∨ pos + 4 ≤ low) :
    (placeAt pos f).extractLsb' low 4 = 0#4 := by
  apply BitVec.eq_of_getLsbD_eq
  intro k hk
  obtain hbelow | habove := h
  · have hlt : ¬pos ≤ low + k := by omega
    simp [getLsbD_placeAt, hlt]
  · have hge : 4 ≤ low + k - pos := by omega
    simp [getLsbD_placeAt, BitVec.getLsbD_of_ge f _ hge]

/-- The fields of a register made of fields are those fields. -/
theorem fields_ofFields (a b c d e f g h : Nibble) :
    let v := ofFields a b c d e f g h
    TraceFilt v = a ∧ PerfMon v = b ∧ MProfDbg v = c ∧ MMapTrc v = d ∧ CopTrc v = e ∧ MMapDbg v = f ∧ CopSDbg v = g
      ∧ CopDbg v = h := by
  refine ⟨?_, ?_, ?_, ?_, ?_, ?_, ?_, ?_⟩ <;>
    simp [TraceFilt, PerfMon, MProfDbg, MMapTrc, CopTrc, MMapDbg, CopSDbg, CopDbg, ofFields, BitVec.extractLsb'_or,
      nibbleAt_placeAt_same, nibbleAt_placeAt_disjoint]

/-- Settles O7: the bits of each field, the concatenation, and the fields of a concatenation. -/
theorem fieldsTileTheRegister : Obligations.FieldsTileTheRegister :=
  ⟨fun v _ hk => ⟨getLsbD_nibbleAt v 28 hk, getLsbD_nibbleAt v 24 hk, getLsbD_nibbleAt v 20 hk, getLsbD_nibbleAt v 16 hk,
    getLsbD_nibbleAt v 12 hk, getLsbD_nibbleAt v 8 hk, getLsbD_nibbleAt v 4 hk, getLsbD_nibbleAt v 0 hk⟩,
   ofFields_fields, fields_ofFields⟩

end Sys2Proof.Machine.IdDfr0
end

section
/-! PROOFS. `Permitted` (10_state.md R32), group by group. -/

namespace Sys2Proof.Machine.IdDfr0

/-! ### Ranges of field values -/

/-- The field values from `lo` to `hi`, as the list a rule of 10_state.md writes out. -/
def nibblesBetween (lo hi : Nibble) : List Nibble :=
  ((List.range 16).map (BitVec.ofNat 4)).filter fun f => decide (lo ≤ f ∧ f ≤ hi)

theorem mem_nibblesBetween {lo hi f : Nibble} : f ∈ nibblesBetween lo hi ↔ lo ≤ f ∧ f ≤ hi := by
  have hall : f ∈ (List.range 16).map (BitVec.ofNat 4) :=
    List.mem_map.2 ⟨f.toNat, List.mem_range.2 f.isLt, (BitVec.ofNat_toNat 4 f).trans f.setWidth_eq⟩
  simp [nibblesBetween, List.mem_filter, hall]

/-- A value from `lo` up is no value below `lo`. -/
theorem ne_of_lt_of_le {k lo f : Nibble} (hk : k < lo) (hf : lo ≤ f) : f ≠ k := by
  rintro rfl
  exact BitVec.not_lt.2 hf hk

/-- A value from `k` up other than `k` is one from `k + 1` up. -/
theorem succ_le_of_le_of_ne {k f : Nibble} (hf : k ≤ f) (hne : f ≠ k) : k + 1#4 ≤ f := by
  bv_omega

/-! ### The values with a meaning -/

theorem traceFilt_isSome_iff (f : Nibble) : (TraceFiltMeaning.ofField f).isSome = true ↔ f ∈ [0b0000#4, 0b0001#4] := by
  decide +revert

theorem perfMon_isSome_iff (f : Nibble) :
    (PerfMonMeaning.ofField f).isSome = true ↔ f ∈ [0b0000#4, 0b0001#4, 0b0010#4, 0b0011#4, 0b0100#4, 0b0101#4, 0b0110#4,
      0b0111#4, 0b1000#4, 0b1001#4, 0b1111#4] := by
  decide +revert

theorem mProfDbg_isSome_iff (f : Nibble) : (MProfDbgMeaning.ofField f).isSome = true ↔ f ∈ [0b0000#4, 0b0001#4] := by
  decide +revert

theorem mMapTrc_isSome_iff (f : Nibble) : (MMapTrcMeaning.ofField f).isSome = true ↔ f ∈ [0b0000#4, 0b0001#4] := by
  decide +revert

theorem copTrc_isSome_iff (f : Nibble) : (CopTrcMeaning.ofField f).isSome = true ↔ f ∈ [0b0000#4, 0b0001#4] := by
  decide +revert

theorem mMapDbg_isSome_iff (f : Nibble) :
    (MMapDbgMeaning.ofField f).isSome = true ↔ f ∈ [0b0000#4, 0b0100#4, 0b0101#4] := by
  decide +revert

theorem copDbg_isSome_iff (f : Nibble) :
    (CopDbgMeaning.ofField f).isSome = true ↔ f ∈ [0b0000#4, 0b0010#4, 0b0011#4, 0b0100#4, 0b0101#4, 0b0110#4, 0b0111#4,
      0b1000#4, 0b1001#4, 0b1010#4, 0b1011#4] := by
  decide +revert

/-- Each field with a value list holds a value that has a meaning. -/
theorem listed_iff (v : Word) : listed v = true ↔
    (TraceFiltMeaning.ofField (TraceFilt v)).isSome = true ∧ (PerfMonMeaning.ofField (PerfMon v)).isSome = true
      ∧ (MProfDbgMeaning.ofField (MProfDbg v)).isSome = true ∧ (MMapTrcMeaning.ofField (MMapTrc v)).isSome = true
      ∧ (CopTrcMeaning.ofField (CopTrc v)).isSome = true ∧ (MMapDbgMeaning.ofField (MMapDbg v)).isSome = true
      ∧ (CopDbgMeaning.ofField (CopDbg v)).isSome = true := by
  simp only [listed, Bool.and_eq_true, and_assoc]

/-- The PerfMon values with a meaning are those up to 9, and 15. -/
theorem perfMon_isSome_iff_le (f : Nibble) : (PerfMonMeaning.ofField f).isSome = true ↔ f ≤ 0b1001#4 ∨ f = 0b1111#4 := by
  decide +revert

/-- The CopDbg values with a meaning are those up to 11 but for 1. -/
theorem copDbg_isSome_iff_le (f : Nibble) : (CopDbgMeaning.ofField f).isSome = true ↔ f ≠ 0b0001#4 ∧ f ≤ 0b1011#4 := by
  decide +revert

/-- Settles O9: the first group of `Permitted`, each value list as bounds. -/
theorem reservedValuesAreNotPermitted : Obligations.ReservedValuesAreNotPermitted := by
  intro c v hv
  obtain ⟨hlisted, -⟩ := permitted_groups hv
  obtain ⟨htraceFilt, hperfMon, hmProfDbg, hmMapTrc, hcopTrc, hmMapDbg, hcopDbg⟩ := (listed_iff v).1 hlisted
  have le_one_of_mem {f : Nibble} (hf : f ∈ nibblesBetween 0b0000#4 0b0001#4) : f ≤ 0b0001#4 :=
    (mem_nibblesBetween.1 hf).2
  refine ⟨le_one_of_mem ((traceFilt_isSome_iff _).1 htraceFilt), (perfMon_isSome_iff_le _).1 hperfMon,
    le_one_of_mem ((mProfDbg_isSome_iff _).1 hmProfDbg), le_one_of_mem ((mMapTrc_isSome_iff _).1 hmMapTrc),
    le_one_of_mem ((copTrc_isSome_iff _).1 hcopTrc), ?_, (copDbg_isSome_iff_le _).1 hcopDbg⟩
  simpa using (mMapDbg_isSome_iff _).1 hmMapDbg

/-! ### The conditions -/

/-- `Permitted` is the conjunction of its eight groups: `permitted_groups` and its converse. -/
theorem permitted_iff_groups (c : Config) (v : Word) : Permitted c v = true ↔
    listed v = true ∧ traceFiltPermitted c (TraceFilt v) = true ∧ perfMonFeatures c (PerfMon v) = true
      ∧ perfMonVersions c (PerfMon v) = true ∧ armv8aZeroFields c v = true
      ∧ CopSDbg v = copSDbgOf c (CopDbg v) ∧ copDbgFeatures c (CopDbg v) = true
      ∧ copDbgVersions c (CopDbg v) = true := by
  simp only [Permitted, Bool.and_eq_true, beq_iff_eq, and_assoc]

/-- Settles O46, group by group: a range of values is the list the rule writes (`mem_nibblesBetween`). -/
theorem permittedExactlyWhenItsConditionsHold : Obligations.PermittedExactlyWhenItsConditionsHold := by
  intro c v
  refine (permitted_iff_groups c v).trans (and_congr ?listed (and_congr ?traceFilt (and_congr ?perfMonFeatures
    (and_congr ?perfMonVersions (and_congr ?zeroFields (and_congr Iff.rfl (and_congr ?copDbgFeatures
    ?copDbgVersions)))))))
  case listed =>
    rw [listed_iff, traceFilt_isSome_iff, perfMon_isSome_iff, mProfDbg_isSome_iff, mMapTrc_isSome_iff, copTrc_isSome_iff,
      mMapDbg_isSome_iff, copDbg_isSome_iff]
  case traceFilt => exact decide_eq_true_iff
  case perfMonFeatures =>
    simp only [perfMonFeatures, decide_eq_true_eq, ← mem_nibblesBetween]
    exact Iff.rfl
  case perfMonVersions =>
    simp only [perfMonVersions, decide_eq_true_eq, List.mem_cons, List.not_mem_nil, or_false, not_or]
  case zeroFields => exact decide_eq_true_iff
  case copDbgFeatures =>
    simp only [copDbgFeatures, decide_eq_true_eq, ← mem_nibblesBetween]
    exact Iff.rfl
  case copDbgVersions =>
    simp only [copDbgVersions, decide_eq_true_eq, List.mem_cons, List.not_mem_nil, or_false, not_or]

/-- Settles O8: the last two clauses of TraceFilt's group. -/
theorem traceFiltZeroIsForbidden : Obligations.TraceFiltZeroIsForbidden := by
  intro c v hv
  obtain ⟨-, htraceFilt, -⟩ := permitted_groups hv
  obtain ⟨-, hetmv4, hete⟩ := of_decide_eq_true htraceFilt
  exact ⟨hetmv4, hete⟩

/-- Settles O12: the two branches of `copSDbgOf`. -/
theorem copSDbgIsDetermined : Obligations.CopSDbgIsDetermined := by
  intro c v hv
  obtain ⟨-, -, -, -, -, hcopSDbg, -⟩ := permitted_groups hv
  exact ⟨fun hns => hcopSDbg.trans (if_pos hns), fun hother => hcopSDbg.trans (if_neg hother)⟩

/-- Settles O13: a PerfMon test under the alternative scheme passes over 15, so the value lies in the test's range of
R19; a listed CopDbg is at most 11, so a CopDbg test's value lies in its range of R29. -/
theorem versionTestsReportOnlyImplementedFeatures : Obligations.VersionTestsReportOnlyImplementedFeatures := by
  intro c v hv
  obtain ⟨hlisted, -, hperfMon, -, -, -, hcopDbg, -⟩ := permitted_groups hv
  obtain ⟨-, hp, -, -, -, -, hd⟩ := (listed_iff v).1 hlisted
  obtain ⟨-, hd11⟩ := (copDbg_isSome_iff_le _).1 hd
  have perfMon_range {k : Nibble} (h : alternativeScheme (PerfMon v) k = true) :
      k ≤ PerfMon v ∧ PerfMon v ≤ 0b1001#4 := by
    simp only [alternativeScheme, Bool.and_eq_true, bne_iff_ne, decide_eq_true_eq] at h
    exact ⟨h.2, ((perfMon_isSome_iff_le _).1 hp).resolve_right h.1⟩
  have copDbg_range {k : Nibble} (h : standardScheme (CopDbg v) k = true) : k ≤ CopDbg v ∧ CopDbg v ≤ 0b1011#4 :=
    ⟨of_decide_eq_true h, hd11⟩
  obtain ⟨h3, h4, h5, h6, h7, h8, h9⟩ := of_decide_eq_true hperfMon
  obtain ⟨d7, d8, d9, d10, d11⟩ := of_decide_eq_true hcopDbg
  refine ⟨fun h => h3 (perfMon_range h), fun h => h4 (perfMon_range h), fun h => h5 (perfMon_range h),
    fun h => h6 (perfMon_range h), fun h => h7 (perfMon_range h), fun h => h8 (perfMon_range h), fun h => h9 ?_,
    fun h => d7 (copDbg_range h), fun h => d8 (copDbg_range h), fun h => d9 (copDbg_range h),
    fun h => d10 (copDbg_range h), fun h => d11 ?_⟩
  · exact BitVec.le_antisymm (perfMon_range h).2 (perfMon_range h).1
  · exact BitVec.le_antisymm (copDbg_range h).2 (copDbg_range h).1

end Sys2Proof.Machine.IdDfr0
end

section
/-! PROOFS. The field values R31 and R33 of 10_state.md leave in an Armv8-A implementation, and an admitted configuration
for every combination of them. -/

namespace Sys2Proof.Machine.IdDfr0

/-! ### CopDbg (R31) -/

/-- `d` is a CopDbg value R31 leaves in the Armv8-A configuration `c`, each field with the first version it speaks of. -/
structure CopDbgLeft (c : Config) (d : Nibble) : Prop where
  v8p0 : 0b0110#4 ≤ d
  max : d ≤ 0b1011#4
  v8p1 : c.V8_MINOR ≥ 1 ∧ c.FEAT_Debugv8p1 = true → 0b0111#4 ≤ d
  v8p2 : c.V8_MINOR ≥ 2 → 0b1000#4 ≤ d
  v8p4 : c.V8_MINOR ≥ 4 → 0b1001#4 ≤ d
  v8p8 : c.V8_MINOR ≥ 8 → 0b1010#4 ≤ d
  v8p9 : c.V8_MINOR ≥ 9 → d = 0b1011#4

/-- The listed CopDbg values that are not those before Armv8. -/
theorem copDbg_armv8_range {d : Nibble} (hlisted : (CopDbgMeaning.ofField d).isSome = true)
    (hold : d ≠ 0b0000#4 ∧ d ≠ 0b0010#4 ∧ d ≠ 0b0011#4 ∧ d ≠ 0b0100#4 ∧ d ≠ 0b0101#4) :
    0b0110#4 ≤ d ∧ d ≤ 0b1011#4 := by
  decide +revert

/-- What the list (R28) and the version rules (R30) leave: each rule takes the lowest value left away. -/
theorem copDbgLeft_of_permitted {c : Config} {d : Nibble} (hA : c.ARMV8A = true)
    (hlisted : (CopDbgMeaning.ofField d).isSome = true) (hversions : copDbgVersions c d = true) : CopDbgLeft c d := by
  obtain ⟨hold, h1, h2, h4, h8, h9⟩ := of_decide_eq_true hversions
  obtain ⟨h6, h11⟩ := copDbg_armv8_range hlisted (hold hA)
  have left2 (hn : c.V8_MINOR ≥ 2) : 0b1000#4 ≤ d :=
    succ_le_of_le_of_ne (succ_le_of_le_of_ne h6 (h2 hn).1) (h2 hn).2
  have left4 (hn : c.V8_MINOR ≥ 4) : 0b1001#4 ≤ d := succ_le_of_le_of_ne (left2 (by omega)) (h4 hn)
  have left8 (hn : c.V8_MINOR ≥ 8) : 0b1010#4 ≤ d := succ_le_of_le_of_ne (left4 (by omega)) (h8 hn)
  have left9 (hn : c.V8_MINOR ≥ 9) : 0b1011#4 ≤ d := succ_le_of_le_of_ne (left8 (by omega)) (h9 hn)
  exact ⟨h6, h11, fun hn => succ_le_of_le_of_ne h6 (h1 hn), left2, left4, left8,
    fun hn => BitVec.le_antisymm h11 (left9 hn)⟩

/-- The values left break no version rule (R30). -/
theorem copDbgVersions_of_left {c : Config} {d : Nibble} (h : CopDbgLeft c d) : copDbgVersions c d = true := by
  have above {k : Nibble} (hk : k < 0b0110#4) : d ≠ k := ne_of_lt_of_le hk h.v8p0
  exact decide_eq_true
    ⟨fun _ => ⟨above (by decide), above (by decide), above (by decide), above (by decide), above (by decide)⟩,
     fun hn => ne_of_lt_of_le (by decide) (h.v8p1 hn),
     fun hn => ⟨ne_of_lt_of_le (by decide) (h.v8p2 hn), ne_of_lt_of_le (by decide) (h.v8p2 hn)⟩,
     fun hn => ne_of_lt_of_le (by decide) (h.v8p4 hn),
     fun hn => ne_of_lt_of_le (by decide) (h.v8p8 hn),
     fun hn => by rw [h.v8p9 hn]; decide⟩

/-- Settles O10: the fields of `CopDbgLeft`. -/
theorem copDbgValuesLeftByVersion : Obligations.CopDbgValuesLeftByVersion := by
  intro c v hA hv
  obtain ⟨hlisted, -, -, -, -, -, -, hversions⟩ := permitted_groups hv
  obtain ⟨-, -, -, -, -, -, hcopDbg⟩ := (listed_iff v).1 hlisted
  have hleft := copDbgLeft_of_permitted hA hcopDbg hversions
  exact ⟨hleft.v8p0, hleft.max, hleft.v8p1, hleft.v8p2, hleft.v8p4, hleft.v8p8, hleft.v8p9⟩

/-! ### PerfMon (R33) -/

/-- `p` is a PerfMon value R33 leaves beside FEAT_PMUv3 from version `n` on, each field with the first version it speaks
of. -/
structure PmuV3Left (n : Nat) (p : Nibble) : Prop where
  v8p0 : 0b0011#4 ≤ p
  max : p ≤ 0b1001#4
  v8p1 : n ≥ 1 → 0b0100#4 ≤ p
  v8p4 : n ≥ 4 → 0b0101#4 ≤ p
  v8p5 : n ≥ 5 → 0b0110#4 ≤ p
  v8p7 : n ≥ 7 → 0b0111#4 ≤ p
  v8p8 : n ≥ 8 → 0b1000#4 ≤ p
  v8p9 : n ≥ 9 → p = 0b1001#4

/-- `p` is a PerfMon value R33 leaves in the Armv8-A configuration `c`. -/
structure PerfMonLeft (c : Config) (p : Nibble) : Prop where
  absent : c.FEAT_PMUv3 = false → p = 0b0000#4 ∨ p = 0b1111#4
  pmuV3 : c.FEAT_PMUv3 = true → PmuV3Left c.V8_MINOR p

/-- The listed PerfMon values that are not those before PMUv3 either deny FEAT_PMUv3 or are PMUv3's. -/
theorem perfMon_armv8_cases {p : Nibble} (hlisted : (PerfMonMeaning.ofField p).isSome = true)
    (hold : p ≠ 0b0001#4 ∧ p ≠ 0b0010#4) : (p = 0b0000#4 ∨ p = 0b1111#4) ∨ (0b0011#4 ≤ p ∧ p ≤ 0b1001#4) := by
  decide +revert

/-- What the list (R18), R19's first line and the version rules (R20, R22) leave: each version rule takes the lowest
value left away. -/
theorem perfMonLeft_of_permitted {c : Config} {p : Nibble} (hA : c.ARMV8A = true)
    (hlisted : (PerfMonMeaning.ofField p).isSome = true) (hfeatures : perfMonFeatures c p = true)
    (hversions : perfMonVersions c p = true) : PerfMonLeft c p := by
  obtain ⟨hpmuV3, -⟩ := of_decide_eq_true hfeatures
  obtain ⟨hold, h1, h4, h5, h7, h8, h9, hdeny⟩ := of_decide_eq_true hversions
  obtain hnone | hrange := perfMon_armv8_cases hlisted (hold hA)
  · refine ⟨fun _ => hnone, fun hb => ?_⟩
    obtain ⟨hne0, hne15⟩ := hdeny hb
    exact (hnone.elim hne0 hne15).elim
  · refine ⟨fun hb => by simp [hpmuV3 hrange] at hb, fun hb => ?_⟩
    have left1 (hn : c.V8_MINOR ≥ 1) : 0b0100#4 ≤ p := succ_le_of_le_of_ne hrange.1 (h1 ⟨hb, hn⟩)
    have left4 (hn : c.V8_MINOR ≥ 4) : 0b0101#4 ≤ p := succ_le_of_le_of_ne (left1 (by omega)) (h4 ⟨hb, hn⟩)
    have left5 (hn : c.V8_MINOR ≥ 5) : 0b0110#4 ≤ p := succ_le_of_le_of_ne (left4 (by omega)) (h5 ⟨hb, hn⟩)
    have left7 (hn : c.V8_MINOR ≥ 7) : 0b0111#4 ≤ p := succ_le_of_le_of_ne (left5 (by omega)) (h7 ⟨hb, hn⟩)
    have left8 (hn : c.V8_MINOR ≥ 8) : 0b1000#4 ≤ p := succ_le_of_le_of_ne (left7 (by omega)) (h8 ⟨hb, hn⟩)
    have left9 (hn : c.V8_MINOR ≥ 9) : 0b1001#4 ≤ p := succ_le_of_le_of_ne (left8 (by omega)) (h9 ⟨hb, hn⟩)
    exact ⟨hrange.1, hrange.2, left1, left4, left5, left7, left8, fun hn => BitVec.le_antisymm hrange.2 (left9 hn)⟩

/-- The values left are listed (R18). -/
theorem perfMon_isSome_of_left {c : Config} {p : Nibble} (h : PerfMonLeft c p) :
    (PerfMonMeaning.ofField p).isSome = true := by
  cases hb : c.FEAT_PMUv3 with
  | false => obtain rfl | rfl := h.absent hb <;> rfl
  | true => exact (perfMon_isSome_iff_le p).2 (.inl (h.pmuV3 hb).max)

/-- The values left name a PMUv3 only beside FEAT_PMUv3 (R19's first line). -/
theorem feat_pmuV3_of_left {c : Config} {p : Nibble} (h : PerfMonLeft c p) (hrange : 0b0011#4 ≤ p ∧ p ≤ 0b1001#4) :
    c.FEAT_PMUv3 = true := by
  cases hb : c.FEAT_PMUv3 with
  | false =>
    obtain rfl | rfl := h.absent hb
    · exact absurd hrange.1 (by decide)
    · exact absurd hrange.2 (by decide)
  | true => rfl

/-- The values left break no version rule (R20, R22). -/
theorem perfMonVersions_of_left {c : Config} {p : Nibble} (h : PerfMonLeft c p) : perfMonVersions c p = true := by
  have hold : p ≠ 0b0001#4 ∧ p ≠ 0b0010#4 := by
    cases hb : c.FEAT_PMUv3 with
    | false => obtain rfl | rfl := h.absent hb <;> decide
    | true => exact ⟨ne_of_lt_of_le (by decide) (h.pmuV3 hb).v8p0, ne_of_lt_of_le (by decide) (h.pmuV3 hb).v8p0⟩
  have hdeny (hb : c.FEAT_PMUv3 = true) : p ≠ 0b0000#4 ∧ p ≠ 0b1111#4 := by
    refine ⟨ne_of_lt_of_le (by decide) (h.pmuV3 hb).v8p0, ?_⟩
    rintro rfl
    exact absurd (h.pmuV3 hb).max (by decide)
  exact decide_eq_true
    ⟨fun _ => hold,
     fun hn => ne_of_lt_of_le (by decide) ((h.pmuV3 hn.1).v8p1 hn.2),
     fun hn => ne_of_lt_of_le (by decide) ((h.pmuV3 hn.1).v8p4 hn.2),
     fun hn => ne_of_lt_of_le (by decide) ((h.pmuV3 hn.1).v8p5 hn.2),
     fun hn => ne_of_lt_of_le (by decide) ((h.pmuV3 hn.1).v8p7 hn.2),
     fun hn => ne_of_lt_of_le (by decide) ((h.pmuV3 hn.1).v8p8 hn.2),
     fun hn => by rw [(h.pmuV3 hn.1).v8p9 hn.2]; decide,
     hdeny⟩

/-- Settles O11: the fields of `PerfMonLeft`. -/
theorem perfMonValuesLeftByVersion : Obligations.PerfMonValuesLeftByVersion := by
  intro c v hA hv
  obtain ⟨hlisted, -, hfeatures, hversions, -⟩ := permitted_groups hv
  obtain ⟨-, hperfMon, -⟩ := (listed_iff v).1 hlisted
  have hleft := perfMonLeft_of_permitted hA hperfMon hfeatures hversions
  refine ⟨hleft.absent, fun hb => ?_⟩
  have h := hleft.pmuV3 hb
  exact ⟨h.v8p0, h.max, h.v8p1, h.v8p4, h.v8p5, h.v8p7, h.v8p8, h.v8p9⟩

/-! ### A configuration for every combination -/

/-- Version `n` with EL3, FEAT_Debugv8p1 (`q`), FEAT_PMUv3 (`b`), FEAT_ETMv4 and FEAT_ETE as given, FEAT_TRF where
TraceFilt is to be `a`, and every later feature of the PerfMon and CopDbg families. -/
def versionConfig (n : Nat) (haveEL3 q b etm ete : Bool) (noEL3 : SecurityState) (a : Nibble) : Config :=
  { Config.cfgA with
    V8_MINOR := n, HAVE_EL3 := haveEL3, NOEL3_STATE := noEL3
    FEAT_TRF := decide (a = 0b0001#4), FEAT_ETMv4 := etm, FEAT_ETE := ete
    FEAT_PMUv3 := b, FEAT_PMUv3p1 := true, FEAT_PMUv3p4 := true, FEAT_PMUv3p5 := true, FEAT_PMUv3p7 := true
    FEAT_PMUv3p8 := true, FEAT_PMUv3p9 := true
    FEAT_Debugv8p1 := q, FEAT_Debugv8p2 := true, FEAT_Debugv8p4 := true, FEAT_Debugv8p8 := true
    FEAT_Debugv8p9 := true }

/-- The register value with these fields, the other three as an Armv8-A implementation must have them (R23, R26, R27). -/
def reportedValue (c : Config) (a p m t d : Nibble) : Word := ofFields a p 0b0000#4 m t 0b0000#4 (copSDbgOf c d) d

/-- `Permitted` of a value looks at the features and the version, not at the configured value. -/
theorem permitted_withValue (c : Config) (w v : Word) : Permitted { c with ID_DFR0 := w } v = Permitted c v := rfl

/-- `Permitted` of the value made of five fields. -/
theorem permitted_reportedValue {c : Config} {a p m t d : Nibble} (ha : a ≤ 0b0001#4) (hm : m ≤ 0b0001#4)
    (ht : t ≤ 0b0001#4) (htraceFilt : traceFiltPermitted c a = true) (hp : PerfMonLeft c p)
    (hperfMon : perfMonFeatures c p = true) (hd : CopDbgLeft c d) (hcopDbg : copDbgFeatures c d = true) :
    Permitted c (reportedValue c a p m t d) = true := by
  obtain ⟨ea, ep, eprof, em, et, emap, es, ed⟩ := fields_ofFields a p 0b0000#4 m t 0b0000#4 (copSDbgOf c d) d
  have mem_of_le_one {f : Nibble} (hf : f ≤ 0b0001#4) : f ∈ nibblesBetween 0b0000#4 0b0001#4 :=
    mem_nibblesBetween.2 ⟨Nat.zero_le f.toNat, hf⟩
  have hlisted : listed (reportedValue c a p m t d) = true := by
    rw [listed_iff, reportedValue, ea, ep, eprof, em, et, emap, ed]
    exact ⟨(traceFilt_isSome_iff a).2 (mem_of_le_one ha), perfMon_isSome_of_left hp, rfl,
      (mMapTrc_isSome_iff m).2 (mem_of_le_one hm), (copTrc_isSome_iff t).2 (mem_of_le_one ht), rfl,
      (copDbg_isSome_iff_le d).2 ⟨ne_of_lt_of_le (by decide) hd.v8p0, hd.max⟩⟩
  have hzero : armv8aZeroFields c (reportedValue c a p m t d) = true := decide_eq_true ⟨fun _ => eprof, fun _ => emap⟩
  rw [permitted_iff_groups]
  refine ⟨hlisted, ?_, ?_, ?_, hzero, ?_, ?_, ?_⟩ <;> simp only [reportedValue, ea, ep, es, ed]
  · exact htraceFilt
  · exact hperfMon
  · exact perfMonVersions_of_left hp
  · exact hcopDbg
  · exact copDbgVersions_of_left hd

/-- Settles O14: `versionConfig` with `reportedValue` in its register. -/
theorem everyVersionAdmitsEveryValueLeft : Obligations.EveryVersionAdmitsEveryValueLeft := by
  intro n haveEL3 q b etm ete noEL3 a p m t d ha hetm hete hm ht hp0 hp1 h6 h11 h1 hq h2 h4 h8 h9
  let c := versionConfig n haveEL3 q b etm ete noEL3 a
  have hp : PerfMonLeft c p := by
    refine ⟨hp0, fun hb => ?_⟩
    obtain ⟨p3, pmax, p4, p5, p6, p7, p8, p9⟩ := hp1 hb
    exact ⟨p3, pmax, p4, p5, p6, p7, p8, p9⟩
  have hd : CopDbgLeft c d := ⟨h6, h11, h1, h2, h4, h8, h9⟩
  have htraceFilt : traceFiltPermitted c a = true := decide_eq_true ⟨decide_eq_true_iff.symm, hetm, hete⟩
  have hperfMon : perfMonFeatures c p = true :=
    decide_eq_true
      ⟨feat_pmuV3_of_left hp, fun _ => rfl, fun _ => rfl, fun _ => rfl, fun _ => rfl, fun _ => rfl, fun _ => rfl⟩
  have hcopDbg : copDbgFeatures c d = true :=
    decide_eq_true ⟨fun h => hq h.1, fun _ => rfl, fun _ => rfl, fun _ => rfl, fun _ => rfl⟩
  have hadmitted : admitted { c with ID_DFR0 := reportedValue c a p m t d } = true :=
    (admitted_iff _).2 ⟨rfl, (permitted_withValue c _ _).trans
      (permitted_reportedValue ha hm ht htraceFilt hp hperfMon hd hcopDbg)⟩
  obtain ⟨ea, ep, -, em, et, -, -, ed⟩ := fields_ofFields a p 0b0000#4 m t 0b0000#4 (copSDbgOf c d) d
  exact ⟨{ c with ID_DFR0 := reportedValue c a p m t d }, hadmitted, rfl, rfl, rfl, rfl, rfl, rfl, rfl, rfl, ea, ep,
    em, et, ed⟩

end Sys2Proof.Machine.IdDfr0
end

section
/-! PROOFS. The read as one register assignment: bit by bit, and twice in a row (20_memory.md R42, R43). -/

namespace Sys2Proof.Machine

/-! ### Rules of `writeReg` and of the allowed read -/

/-- Of two writes to one register the second stays. -/
@[simp] theorem writeReg_writeReg_same (s : State) (t : Fin 15) (v w : Word) :
    (s.writeReg t v).writeReg t w = s.writeReg t w := by
  simp [State.writeReg]

/-- Whether a condition passes does not depend on the registers. -/
@[simp] theorem conditionPasses_writeReg (s : State) (t : Fin 15) (v : Word) (i : Instr) :
    (s.writeReg t v).conditionPasses i = s.conditionPasses i := by
  cases i <;> rfl

/-- The next state of a read whose condition passes and that is allowed. -/
theorem exec_of_passes_of_allowed {i : Instr} {s : State} {t : Fin 15} (hd : destination i.instrSet i.rt = some t)
    (hp : s.conditionPasses i = true) (ha : readAllowed s.cfg s.ctx = true) :
    exec i s = .next (s.writeReg t s.cfg.ID_DFR0) := by
  rw [exec_of_passes hd hp, readID_DFR0_of_allowed t ha, State.finish]

/-- A read that completes with its condition passed has written ID_DFR0 to the register its `<Rt>` names. -/
theorem exec_next_of_passes {i : Instr} {s s' : State} {t : Fin 15} (ht : i.rt.toNat = t)
    (hp : s.conditionPasses i = true) (h : exec i s = .next s') : s' = s.writeReg t s.cfg.ID_DFR0 := by
  obtain ⟨hfails, -⟩ | ⟨-, -, t', hd, rfl⟩ := exec_next h
  · simp [hp] at hfails
  · have htt' : t' = t := Fin.ext ((destination_some hd).trans ht)
    rw [htt']

/-! ### The statements -/

/-- Settles O30: a failed condition leaves the state itself; after a read the condition, the access rule and the value
read are as before, so the second read writes the same value over the first. -/
theorem readingTwiceIsReadingOnce : Obligations.ReadingTwiceIsReadingOnce := by
  intro i s s' h
  obtain ⟨-, rfl⟩ | ⟨hp, ha, t, hd, rfl⟩ := exec_next h
  · exact h
  · have hp' : (s.writeReg t s.cfg.ID_DFR0).conditionPasses i = true := by rwa [conditionPasses_writeReg]
    rw [exec_of_passes_of_allowed hd hp' ha, writeReg_cfg, writeReg_writeReg_same]

/-- Settles O32: the destination holds ID_DFR0 whole, and ID_DFR0_EL1 is the same storage, which a read leaves as it
was. -/
theorem everyBitIsCopied : Obligations.EveryBitIsCopied := by
  intro i s s' t ht hp h k _
  obtain rfl := exec_next_of_passes ht hp h
  rw [readReg_writeReg_same, IdDfr0.ID_DFR0_EL1_low, writeReg_cfg]
  exact ⟨rfl, rfl⟩

end Sys2Proof.Machine
end

section
/-! PROOFS. Decoder, encoder and assembler form (30_encoding.md R50 to R56; 40_mrc_id_dfr0.md R64). -/

namespace Sys2Proof

/-! ### The encoder and the decoder undo each other (R51, R52, R53) -/

@[simp] theorem encodeFields_read (i : Instr) : (encodeFields i).read = 1#1 := by
  cases i <;> rfl

@[simp] theorem encodeFields_rt (i : Instr) : (encodeFields i).rt = i.rt := by
  cases i <;> rfl

/-- The fields of an instruction's word are the instruction's fields. -/
@[simp] theorem ofWord_encode (i : Instr) : MrcFields.ofWord (encode i) = encodeFields i :=
  ofWord_toWord (encodeFields i)

theorem encode_condBits (c : Cond) (rt : Nibble) : (encode (.mrcA32 c rt)).extractLsb' 28 4 = c.toBits :=
  congrArg MrcFields.top (ofWord_encode (.mrcA32 c rt))

theorem encode_readBit (i : Instr) : (encode i).extractLsb' 20 1 = 1#1 :=
  (congrArg MrcFields.read (ofWord_encode i)).trans (encodeFields_read i)

theorem encode_rtBits (i : Instr) : (encode i).extractLsb' 12 4 = i.rt :=
  (congrArg MrcFields.rt (ofWord_encode i)).trans (encodeFields_rt i)

/-- A word with an instruction's fields is that instruction's word. -/
theorem encode_of_ofWord {i : Instr} {w : Word} (h : MrcFields.ofWord w = encodeFields i) : encode i = w := by
  rw [encode, ← h, toWord_ofWord]

/-- The converse of `decodeFields_ok`. -/
theorem decodeFields_encodeFields {i : Instr} (hw : i.wellFormed = true) :
    decodeFields i.instrSet (encodeFields i) = .ok i := by
  cases i with
  | mrcA32 c rt =>
    simp [decodeFields, encodeFields, idDfr0ReadFields, MrcFields.selector, idDfr0Selector, Instr.instrSet,
      Cond.ofBits_toBits, hw]
  | mrcT32 rt =>
    simp [decodeFields, encodeFields, idDfr0ReadFields, MrcFields.selector, idDfr0Selector, Instr.instrSet, hw]

/-- What decoding means: the word is the encoding of a well-formed instruction of the instruction set asked for. -/
theorem decode_eq_ok_iff {iset : InstrSet} {w : Word} {i : Instr} :
    decode iset w = .ok i ↔ encode i = w ∧ i.wellFormed = true ∧ i.instrSet = iset := by
  constructor
  · intro h
    obtain ⟨hw, hset, hfields⟩ := decodeFields_ok h
    exact ⟨encode_of_ofWord hfields, hw, hset⟩
  · rintro ⟨rfl, hw, rfl⟩
    rw [encode, decode_toWord, decodeFields_encodeFields hw]

/-- Settles O1: from right to left in `decode_eq_ok_iff`. -/
theorem decodeOfEncodeIsIdentity : Obligations.DecodeOfEncodeIsIdentity := by
  intro i hw
  exact decode_eq_ok_iff.2 ⟨rfl, hw, rfl⟩

/-- Settles O2: from left to right in `decode_eq_ok_iff`. -/
theorem encodeOfDecodeIsIdentity : Obligations.EncodeOfDecodeIsIdentity := by
  intro iset w i h
  exact decode_eq_ok_iff.1 h

/-- Settles O5: the word that decodes has bit 20 set, as every encoding has (R55). -/
theorem writesAreNeverDecoded : Obligations.WritesAreNeverDecoded := by
  intro iset w hwrite
  cases hd : decode iset w with
  | error e => exact ⟨e, rfl⟩
  | ok i =>
    obtain ⟨rfl, -, -⟩ := decode_eq_ok_iff.1 hd
    rw [encode_readBit] at hwrite
    exact absurd hwrite (by decide)

/-! ### Admitted destinations and conditions (R52, R64) -/

/-- The admitted destinations of both forms at once. -/
theorem Instr.wellFormed_iff (i : Instr) :
    i.wellFormed = true ↔ i.rt ≠ 15#4 ∧ (i.instrSet = .t32 → i.rt ≠ 13#4) := by
  cases i with
  | mrcA32 c rt => simp [Instr.wellFormed, Instr.rt, Instr.instrSet]
  | mrcT32 rt => simp [Instr.wellFormed, Instr.rt, Instr.instrSet, and_comm]

/-- No condition has the field 0b1111. -/
theorem Cond.toBits_ne (c : Cond) : c.toBits ≠ 15#4 :=
  (Cond.ofBits_isSome c.toBits).1 (by rw [Cond.ofBits_toBits]; rfl)

/-- Every other field is a condition's. -/
theorem Cond.exists_toBits {b : Nibble} (h : b ≠ 15#4) : ∃ c : Cond, c.toBits = b := by
  obtain ⟨c, hc⟩ := Option.isSome_iff_exists.1 ((Cond.ofBits_isSome b).2 h)
  exact ⟨c, Cond.toBits_of_ofBits hc⟩

/-! ### Mask and match (30_encoding.md section 5) -/

/-- A field that lies whole under the mask is read off the match. -/
theorem extractLsb'_of_and_eq {w mask matched : Word} {pos n : Nat} (h : w &&& mask = matched)
    (hmask : mask.extractLsb' pos n = BitVec.allOnes n) : w.extractLsb' pos n = matched.extractLsb' pos n := by
  rw [← h, BitVec.extractLsb'_and, hmask, BitVec.and_allOnes]

/-- The fixed bits of the A32 row leave `cond` and `Rt` free and make the word an ID_DFR0 read. -/
theorem ofWord_of_a32Row {w : Word} (h : w &&& 0x0FFF0FFF#32 = 0x0E100F51#32) :
    MrcFields.ofWord w = idDfr0ReadFields (w.extractLsb' 28 4) (w.extractLsb' 12 4) := by
  have hfield (pos n : Nat) (hmask : (0x0FFF0FFF#32).extractLsb' pos n = BitVec.allOnes n) :
      w.extractLsb' pos n = (0x0E100F51#32).extractLsb' pos n := extractLsb'_of_and_eq h hmask
  rw [MrcFields.ofWord, hfield 24 4 rfl, hfield 21 3 rfl, hfield 20 1 rfl, hfield 16 4 rfl, hfield 8 4 rfl,
    hfield 5 3 rfl, hfield 4 1 rfl, hfield 0 4 rfl]
  rfl

/-- The fixed bits of the T32 row are those of the A32 row with 0b1110 in the place of `cond`. -/
theorem ofWord_of_t32Row {w : Word} (h : w &&& 0xFFFF0FFF#32 = 0xEE100F51#32) :
    MrcFields.ofWord w = idDfr0ReadFields 0b1110#4 (w.extractLsb' 12 4) := by
  have ha32 : w &&& 0x0FFF0FFF#32 = 0x0E100F51#32 := by
    calc w &&& 0x0FFF0FFF#32 = (w &&& 0xFFFF0FFF#32) &&& 0x0FFF0FFF#32 := by rw [BitVec.and_assoc]; rfl
      _ = 0x0E100F51#32 := by rw [h]; rfl
  have htop : w.extractLsb' 28 4 = 0b1110#4 := extractLsb'_of_and_eq h rfl
  rw [ofWord_of_a32Row ha32, htop]

/-- The A32 half of the table: an encoding has the row's fixed bits, a condition and an admitted destination, and a word
that has them has the fields of an encoding. -/
theorem decode_a32_iff_row (w : Word) :
    (∃ i, decode .a32 w = .ok i) ↔
      w &&& 0x0FFF0FFF#32 = 0x0E100F51#32 ∧ w.extractLsb' 28 4 ≠ 15#4 ∧ w.extractLsb' 12 4 ≠ 15#4 := by
  constructor
  · rintro ⟨i, hd⟩
    obtain ⟨rfl, hw, hset⟩ := decode_eq_ok_iff.1 hd
    cases i with
    | mrcT32 rt => cases hset
    | mrcA32 c rt =>
      rw [encode_condBits, encode_rtBits]
      exact ⟨Laws.EncodedRow.mrcA32 c rt, c.toBits_ne, ((Instr.wellFormed_iff _).1 hw).1⟩
  · rintro ⟨hrow, hcond, h15⟩
    obtain ⟨c, hc⟩ := Cond.exists_toBits hcond
    have hfields : MrcFields.ofWord w = encodeFields (.mrcA32 c (w.extractLsb' 12 4)) := by
      rw [ofWord_of_a32Row hrow, ← hc, encodeFields]
    exact ⟨_, decode_eq_ok_iff.2 ⟨encode_of_ofWord hfields, (Instr.wellFormed_iff _).2 ⟨h15, nofun⟩, rfl⟩⟩

/-- The T32 half of the table, in the same way. -/
theorem decode_t32_iff_row (w : Word) :
    (∃ i, decode .t32 w = .ok i) ↔
      w &&& 0xFFFF0FFF#32 = 0xEE100F51#32 ∧ w.extractLsb' 12 4 ≠ 13#4 ∧ w.extractLsb' 12 4 ≠ 15#4 := by
  constructor
  · rintro ⟨i, hd⟩
    obtain ⟨rfl, hw, hset⟩ := decode_eq_ok_iff.1 hd
    cases i with
    | mrcA32 c rt => cases hset
    | mrcT32 rt =>
      obtain ⟨h15, h13⟩ := (Instr.wellFormed_iff _).1 hw
      rw [encode_rtBits]
      exact ⟨Laws.EncodedRow.mrcT32 rt, h13 rfl, h15⟩
  · rintro ⟨hrow, h13, h15⟩
    have hfields : MrcFields.ofWord w = encodeFields (.mrcT32 (w.extractLsb' 12 4)) := ofWord_of_t32Row hrow
    exact ⟨_, decode_eq_ok_iff.2 ⟨encode_of_ofWord hfields, (Instr.wellFormed_iff _).2 ⟨h15, fun _ => h13⟩, rfl⟩⟩

/-- Settles O3: the two halves. -/
theorem decodesExactlyTheTableRows : Obligations.DecodesExactlyTheTableRows :=
  fun w => ⟨decode_a32_iff_row w, decode_t32_iff_row w⟩

/-! ### The assembler form (R50, 90_conflicts.md C4) -/

/-- The read an assembler line stands for where it stands for one. -/
def MrcAsm.instr (iset : InstrSet) (a : MrcAsm) : Instr :=
  match iset with
  | .a32 => .mrcA32 (a.cond.getD .al) a.rt
  | .t32 => .mrcT32 a.rt

@[simp] theorem MrcAsm.instr_instrSet (iset : InstrSet) (a : MrcAsm) : (a.instr iset).instrSet = iset := by
  cases iset <;> rfl

@[simp] theorem MrcAsm.instr_rt (iset : InstrSet) (a : MrcAsm) : (a.instr iset).rt = a.rt := by
  cases iset <;> rfl

/-- When an assembler line stands for an instruction, and for which. -/
theorem assemble_eq_some_iff {iset : InstrSet} {a : MrcAsm} {i : Instr} :
    assemble iset a = some i ↔
      a.selector = idDfr0Selector ∧ (a.instr iset).wellFormed = true ∧ a.instr iset = i := by
  cases iset <;> simp [assemble, MrcAsm.instr]

/-- A line names ID_DFR0 with `<opc2>` written only: the default 0 is another register's. -/
theorem MrcAsm.selector_eq_iff (a : MrcAsm) :
    a.selector = idDfr0Selector ↔
      a.coproc = 0b1111#4 ∧ a.opc1 = 0b000#3 ∧ a.crn = 0b0000#4 ∧ a.crm = 0b0001#4 ∧ a.opc2 = some 0b010#3 := by
  have hopc2 : a.opc2.getD 0#3 = 0b010#3 ↔ a.opc2 = some 0b010#3 := by
    cases a.opc2 with
    | none => simp
    | some f => simp
  simp only [MrcAsm.selector, idDfr0Selector, Selector.mk.injEq, hopc2]

/-- Settles O6: the selector of the line and the well-formedness of its instruction, written out. -/
theorem assemblerLineMustWriteOpc2 : Obligations.AssemblerLineMustWriteOpc2 := by
  intro iset a
  have hexists : (∃ i, assemble iset a = some i) ↔
      a.selector = idDfr0Selector ∧ (a.instr iset).wellFormed = true := by
    simp [assemble_eq_some_iff]
  refine ⟨?_, fun i h => ?_⟩
  · rw [hexists, MrcAsm.selector_eq_iff, Instr.wellFormed_iff, MrcAsm.instr_rt, MrcAsm.instr_instrSet]
    simp only [and_assoc]
  · obtain ⟨-, hw, rfl⟩ := assemble_eq_some_iff.1 h
    exact ⟨hw, a.instr_instrSet iset, a.instr_rt iset⟩

/-! ### Table words -/

/-- A table word decodes to what the decoder reads under the table's instruction set for it. -/
theorem decode_of_decodeTableWord {nbits w : Nat} {i : Instr} (h : decodeTableWord nbits w = some i) :
    decode (tableInstrSet (tableWord nbits w)) (tableWord nbits w) = .ok i := by
  unfold decodeTableWord at h
  split_ifs at h
  cases hd : decode (tableInstrSet (tableWord nbits w)) (tableWord nbits w) with
  | error e => simp [hd, Except.toOption] at h
  | ok j => simpa [hd, Except.toOption] using h

end Sys2Proof
end

section
/-! PROOFS. The step on an admitted configuration, by what the fetch and the decoder answer (30_encoding.md R54 to R56;
92_eei_decisions.md D9, D12). -/

namespace Sys2Proof.Machine

/-! ### One equation per answer -/

/-- Nothing is supplied at the program counter. -/
theorem step_of_no_fetch {s : State} (ha : IdDfr0.admitted s.cfg = true) (hf : s.fetch = none) :
    step s = .refused .noInstructionSupplied := by
  obtain ⟨hA, hP⟩ := (IdDfr0.admitted_iff s.cfg).1 ha
  simp [step, hA, hP, hf]

/-- The supplied word is not the read. -/
theorem step_of_decode_error {s : State} {w : Word} {e : DecodeError} (ha : IdDfr0.admitted s.cfg = true)
    (hf : s.fetch = some w) (hd : decode s.iset w = .error e) : step s = .refused (.notIdDfr0Read e) := by
  obtain ⟨hA, hP⟩ := (IdDfr0.admitted_iff s.cfg).1 ha
  simp [step, hA, hP, hf, hd]

/-- The supplied word is a read: it executes, and where it completes the machine moves past it. -/
theorem step_of_decode_ok {s : State} {w : Word} {i : Instr} (ha : IdDfr0.admitted s.cfg = true)
    (hf : s.fetch = some w) (hd : decode s.iset w = .ok i) : step s = mapNext State.advance (exec i s) := by
  obtain ⟨hA, hP⟩ := (IdDfr0.admitted_iff s.cfg).1 ha
  cases he : exec i s <;> simp [step, hA, hP, hf, hd, he, mapNext]

/-! ### The statements -/

/-- Settles O45: the two equations for a fetch that gives no read. -/
theorem stepRefusesWhatIsNotTheRead : Obligations.StepRefusesWhatIsNotTheRead := by
  intro s ha
  exact ⟨fun _ _ hf hd => step_of_decode_error ha hf hd, fun hf => step_of_no_fetch ha hf⟩

/-- The word placed is the word fetched. -/
@[simp] theorem withFetchWord_fetch (s : State) (nbits w : Nat) :
    (s.withFetchWord nbits w).fetch = some (tableWord nbits w) :=
  supplyAt_put_same s.supply s.pc.toNat (tableWord nbits w)

/-- Settles O37: the placed word is fetched, and decoded in the instruction set the table reads it in (R54). -/
theorem placedWordRunsNext : Obligations.PlacedWordRunsNext := by
  intro s nbits w i ha hi
  exact step_of_decode_ok ha (withFetchWord_fetch s nbits w) (decode_of_decodeTableWord hi)

end Sys2Proof.Machine
end

section
/-! PROOFS. The access rule (40_mrc_id_dfr0.md R60 to R62): pseudocode and decision table, and what the outcome depends
on. -/

namespace Sys2Proof.Machine

/-! ### Pseudocode and decision table -/

/-- At EL0 the read is Undefined whether the register is there or not (R60, R70). -/
theorem readID_DFR0_EL0 (cfg : Config) {ctx : Context} (t : Fin 15) (hel : ctx.EL = .EL0) :
    readID_DFR0 cfg ctx t = .raises .undefined := by
  simp [readID_DFR0, hel]

/-- At EL1 the read is allowed where neither regime traps. -/
theorem readAllowed_of_EL1 {cfg : Config} {ctx : Context} (hf : cfg.FEAT_AA32EL1 = true) (hel : ctx.EL = .EL1)
    (h64 : a64Trap cfg ctx = false) (h32 : a32Trap cfg ctx = false) : readAllowed cfg ctx = true := by
  simp [readAllowed, hf, hel, h64, h32]

/-- Above EL1 the read is allowed wherever the register is there. -/
theorem readAllowed_of_above_EL1 {cfg : Config} {ctx : Context} (hf : cfg.FEAT_AA32EL1 = true)
    (hel : ctx.EL = .EL2 ∨ ctx.EL = .EL3) : readAllowed cfg ctx = true := by
  obtain hel | hel := hel <;> simp [readAllowed, hf, hel]

/-- Settles O24, row by row of the table: the laws of the pseudocode give each row's outcome. -/
theorem pseudocodeEqualsDecisionTable : Obligations.PseudocodeEqualsDecisionTable := by
  intro cfg ctx t
  cases hf : cfg.FEAT_AA32EL1 with
  | false => simp [readID_DFR0_absent ctx t hf, readID_DFR0_table, hf]
  | true =>
    cases hel : ctx.EL with
    | EL0 => simp [readID_DFR0_EL0 cfg t hel, readID_DFR0_table, hf, hel]
    | EL1 =>
      cases h64 : a64Trap cfg ctx with
      | true => simp [readID_DFR0_a64Trap t hf hel h64, readID_DFR0_table, hf, hel, h64]
      | false =>
        cases h32 : a32Trap cfg ctx with
        | true => simp [readID_DFR0_a32Trap t hf hel h32, readID_DFR0_table, hf, hel, h64, h32]
        | false =>
          simp [readID_DFR0_of_allowed t (readAllowed_of_EL1 hf hel h64 h32), readID_DFR0_table, hf, hel, h64, h32]
    | EL2 => simp [readID_DFR0_of_allowed t (readAllowed_of_above_EL1 hf (.inl hel)), readID_DFR0_table, hf, hel]
    | EL3 => simp [readID_DFR0_of_allowed t (readAllowed_of_above_EL1 hf (.inr hel)), readID_DFR0_table, hf, hel]

/-! ### What the outcome depends on -/

/-- Of the context only the level and the two trap conditions matter: the columns of the decision table. -/
theorem readID_DFR0_congr {cfg : Config} {ctx ctx' : Context} (t : Fin 15) (hel : ctx'.EL = ctx.EL)
    (h64 : a64Trap cfg ctx' = a64Trap cfg ctx) (h32 : a32Trap cfg ctx' = a32Trap cfg ctx) :
    readID_DFR0 cfg ctx' t = readID_DFR0 cfg ctx t := by
  simp only [pseudocodeEqualsDecisionTable cfg _ t, readID_DFR0_table, hel, h64, h32]

theorem a64Trap_of_usingAArch32 {cfg : Config} {ctx : Context} (h : ctx.EL2UsingAArch32 = true) :
    a64Trap cfg ctx = false := by
  simp [a64Trap, h]

theorem a32Trap_of_not_usingAArch32 {cfg : Config} {ctx : Context} (h : ctx.EL2UsingAArch32 = false) :
    a32Trap cfg ctx = false := by
  simp [a32Trap, h]

/-- Settles O25: the regime not in use does not trap, whatever its controls, and the other regime's trap condition does
not look at them. -/
theorem wrongRegimeControlsAreIgnored : Obligations.WrongRegimeControlsAreIgnored := by
  intro cfg ctx t a b
  constructor
  · intro h
    exact readID_DFR0_congr t rfl rfl (Eq.trans (a32Trap_of_not_usingAArch32 h) (a32Trap_of_not_usingAArch32 h).symm)
  · intro h
    exact readID_DFR0_congr t rfl (Eq.trans (a64Trap_of_usingAArch32 h) (a64Trap_of_usingAArch32 h).symm) rfl

/-- The raising rows of the decision table: which outcome is raised depends neither on the destination nor on the value
of ID_DFR0. -/
theorem readID_DFR0_raises_iff {cfg : Config} {ctx : Context} {t : Fin 15} {f : Fault} :
    readID_DFR0 cfg ctx t = .raises f ↔
      ((cfg.FEAT_AA32EL1 = false ∨ ctx.EL = .EL0) ∧ f = .undefined) ∨
      (cfg.FEAT_AA32EL1 = true ∧ ctx.EL = .EL1 ∧
        ((a64Trap cfg ctx = true ∧ f = .trapToAArch64 .EL2 trapCode) ∨
          (a64Trap cfg ctx = false ∧ a32Trap cfg ctx = true ∧ f = .hypTrap trapCode))) := by
  have raises_inj {g : Fault} : ReadOutcome.raises g = .raises f ↔ f = g := by
    rw [ReadOutcome.raises.injEq, eq_comm]
  rw [pseudocodeEqualsDecisionTable, readID_DFR0_table]
  split <;> simp [*]

theorem readID_DFR0_raises_withValue {cfg : Config} {ctx : Context} {t : Fin 15} {f : Fault}
    (h : readID_DFR0 cfg ctx t = .raises f) (v : Word) : readID_DFR0 { cfg with ID_DFR0 := v } ctx t = .raises f :=
  readID_DFR0_raises_iff.2 ((readID_DFR0_raises_iff (cfg := cfg)).1 h)

/-- The trap condition of the AArch64 regime as the pseudocode's two tests (R60). -/
theorem a64Trap_iff (cfg : Config) (ctx : Context) :
    a64Trap cfg ctx = true ↔
      (ctx.EL2Enabled = true ∧ cfg.FEAT_AA64EL2 = true ∧ ctx.EL2UsingAArch32 = false ∧ ctx.HSTR_EL2_T0 = 1#1) ∨
      (ctx.EL2Enabled = true ∧ cfg.FEAT_AA64EL2 = true ∧ ctx.EL2UsingAArch32 = false ∧ ctx.HCR_EL2_TID3 = 1#1) := by
  simp only [a64Trap, Bool.and_eq_true, Bool.or_eq_true, Bool.not_eq_true', beq_iff_eq, and_or_left, and_assoc]

/-- The trap condition of the AArch32 regime as the pseudocode's two tests (R60). -/
theorem a32Trap_iff (cfg : Config) (ctx : Context) :
    a32Trap cfg ctx = true ↔
      (ctx.EL2Enabled = true ∧ cfg.FEAT_AA32EL2 = true ∧ ctx.EL2UsingAArch32 = true ∧ ctx.HSTR_T0 = 1#1) ∨
      (ctx.EL2Enabled = true ∧ cfg.FEAT_AA32EL2 = true ∧ ctx.EL2UsingAArch32 = true ∧ ctx.HCR_TID3 = 1#1) := by
  simp only [a32Trap, Bool.and_eq_true, Bool.or_eq_true, beq_iff_eq, and_or_left, and_assoc]

end Sys2Proof.Machine
end

section
/-! PROOFS. The executed read: its outcomes, its completion in both forms, its frame, and what it does not depend on
(40_mrc_id_dfr0.md R60 to R65). -/

namespace Sys2Proof.Machine

/-! ### Outcomes -/

/-- An executed read ends in the outcome the access rule raises. -/
theorem exec_of_passes_of_raises {i : Instr} {s : State} {t : Fin 15} {f : Fault}
    (hd : destination i.instrSet i.rt = some t) (hp : s.conditionPasses i = true)
    (hr : readID_DFR0 s.cfg s.ctx t = .raises f) : exec i s = .fault f := by
  rw [exec_of_passes hd hp, hr, State.finish, takeException]

/-- An executed read faults exactly as the access rule says. -/
theorem exec_fault_iff_of_passes {i : Instr} {s : State} {t : Fin 15} {f : Fault}
    (hd : destination i.instrSet i.rt = some t) (hp : s.conditionPasses i = true) :
    exec i s = .fault f ↔ readID_DFR0 s.cfg s.ctx t = .raises f := by
  constructor
  · intro h
    obtain ⟨_, -, hr⟩ := exec_fault h
    exact readID_DFR0_raises_any hr t
  · exact exec_of_passes_of_raises hd hp

/-- Settles O15: the first and third test of the pseudocode are the AArch64 trap condition, the second and fourth the
AArch32 one, and where all four fail the read is allowed. -/
theorem readFollowsTheAccessPseudocode : Obligations.ReadFollowsTheAccessPseudocode := by
  intro i s t hw ht hp c x hstr64 hstr32 hcr64 hcr32 write
  have hd : destination i.instrSet i.rt = some t := destination_of_wellFormed i t hw ht
  have raises {f : Fault} (hr : readID_DFR0 c x t = .raises f) : exec i s = .fault f :=
    exec_of_passes_of_raises hd hp hr
  have writes (ha : readAllowed c x = true) : exec i s = write := exec_of_passes_of_allowed hd hp ha
  refine ⟨fun hf => raises (readID_DFR0_absent x t hf), fun _ hel => raises (readID_DFR0_EL0 c t hel),
    fun hf hel => ?_, fun hf hel => writes (readAllowed_of_above_EL1 hf (.inl hel)),
    fun hf hel => writes (readAllowed_of_above_EL1 hf (.inr hel))⟩
  have traps64 (h : hstr64 ∨ hcr64) : exec i s = .fault (.trapToAArch64 .EL2 0x03) :=
    raises (readID_DFR0_a64Trap t hf hel ((a64Trap_iff c x).2 h))
  have traps32 (h : hstr32 ∨ hcr32) : exec i s = .fault (.hypTrap 0x03) :=
    raises (readID_DFR0_a32Trap t hf hel ((a32Trap_iff c x).2 h))
  refine ⟨fun h => traps64 (.inl h), fun _ h => traps32 (.inl h), fun _ _ h => traps64 (.inr h),
    fun _ _ _ h => traps32 (.inr h),
    fun hnstr64 hnstr32 hncr64 hncr32 => writes (readAllowed_of_EL1 hf hel ?_ ?_)⟩
  · exact Bool.eq_false_iff.2 fun h => ((a64Trap_iff c x).1 h).elim hnstr64 hncr64
  · exact Bool.eq_false_iff.2 fun h => ((a32Trap_iff c x).1 h).elim hnstr32 hncr32

/-- Settles O26: such an instruction has no destination register. -/
theorem unadmittedDestinationsAreRefused : Obligations.UnadmittedDestinationsAreRefused := by
  intro i s hw
  rw [exec_eq_readUnder, destination_of_not_wellFormed i hw, State.readUnder]

/-! ### The condition, and completion in each form -/

/-- The A32 form is under its own condition. -/
@[simp] theorem conditionPasses_mrcA32 (s : State) (c : Cond) (rt : Nibble) :
    s.conditionPasses (.mrcA32 c rt) = conditionHolds c s.flags := rfl

/-- The T32 form in an IT block is under the block's first condition. -/
theorem conditionPasses_mrcT32_of_cons {s : State} {c : Cond} {rest : List Cond} (h : s.itBlock = c :: rest)
    (rt : Nibble) : s.conditionPasses (.mrcT32 rt) = conditionHolds c s.flags := by
  simp [State.conditionPasses, State.conditionOf, State.itCondition, h]

/-- The T32 form outside an IT block is under AL. -/
theorem conditionPasses_mrcT32_of_nil {s : State} (h : s.itBlock = []) (rt : Nibble) :
    s.conditionPasses (.mrcT32 rt) = conditionHolds .al s.flags := by
  simp [State.conditionPasses, State.conditionOf, State.itCondition, h]

/-- Settles O28: both are under AL, which always holds. -/
theorem unconditionalFormsPass : Obligations.UnconditionalFormsPass := by
  intro rt s
  exact ⟨conditionPasses_mrcA32 s .al rt, fun h => conditionPasses_mrcT32_of_nil h rt⟩

/-- A field that is the number of a general register is not 15. -/
theorem ne_fifteen_of_toNat_eq {rt : Nibble} {t : Fin 15} (h : rt.toNat = t) : rt ≠ 15#4 := by
  rintro rfl
  exact absurd t.isLt (by simp [← h])

/-- Settles O16: every destination up to 14 is admitted in A32. -/
theorem a32ReadCompletes : Obligations.A32ReadCompletes := by
  intro c rt s t ht hc ha
  have hw : (Instr.mrcA32 c rt).wellFormed = true :=
    (Instr.wellFormed_iff _).2 ⟨ne_fifteen_of_toNat_eq ht, nofun⟩
  exact exec_of_passes_of_allowed (destination_of_wellFormed _ t hw ht) hc ha

/-- Settles O17: every destination up to 14 but 13 is admitted in T32, and either case of the IT block passes. -/
theorem t32ReadCompletes : Obligations.T32ReadCompletes := by
  intro rt s t ht h13 hit ha
  have hw : (Instr.mrcT32 rt).wellFormed = true :=
    (Instr.wellFormed_iff _).2 ⟨ne_fifteen_of_toNat_eq ht, fun _ => h13⟩
  have hp : s.conditionPasses (.mrcT32 rt) = true := by
    obtain hnil | ⟨c, rest, hcons, hc⟩ := hit
    · rw [conditionPasses_mrcT32_of_nil hnil, conditionHolds]
    · rw [conditionPasses_mrcT32_of_cons hcons, hc]
  exact exec_of_passes_of_allowed (destination_of_wellFormed _ t hw ht) hp ha

/-! ### What the read leaves unchanged, and what it does not depend on -/

/-- Settles O29: the next state is the state itself or the state with one register written. -/
theorem readChangesOnlyItsDestination : Obligations.ReadChangesOnlyItsDestination := by
  intro i s s' h
  obtain ⟨-, rfl⟩ | ⟨-, -, t, hd, rfl⟩ := exec_next h
  · exact ⟨rfl, rfl, rfl, rfl, rfl, rfl, rfl, fun _ _ => rfl⟩
  · refine ⟨rfl, rfl, rfl, rfl, rfl, rfl, rfl, fun r hr => readReg_writeReg_other s _ ?_⟩
    rintro rfl
    exact hr (destination_some hd)

/-- Settles O31: an allowed read writes over the old value; condition and access rule do not look at it. -/
theorem oldDestinationValueIsIrrelevant : Obligations.OldDestinationValueIsIrrelevant := by
  intro i s t v hw ht hp
  have hd : destination i.instrSet i.rt = some t := destination_of_wellFormed i t hw ht
  have hp' : (s.writeReg t v).conditionPasses i = true := by rwa [conditionPasses_writeReg]
  constructor
  · intro ha
    rw [exec_of_passes_of_allowed hd hp' ha, exec_of_passes_of_allowed hd hp ha, writeReg_writeReg_same, writeReg_cfg]
  · intro f
    rw [exec_fault_iff_of_passes hd hp', exec_fault_iff_of_passes hd hp, writeReg_cfg, writeReg_ctx]

end Sys2Proof.Machine
end

section
/-! PROOFS. The read whose condition fails (40_mrc_id_dfr0.md R65), and what a reader who may not read cannot learn. -/

namespace Sys2Proof.Machine

/-- A failed condition where the read would have written. -/
theorem exec_of_fails_of_allowed {i : Instr} {s : State} {t : Fin 15} (hd : destination i.instrSet i.rt = some t)
    (hp : s.conditionPasses i = false) (ha : readAllowed s.cfg s.ctx = true) : exec i s = .next s := by
  rw [exec_of_fails hd hp, readID_DFR0_of_allowed t ha, State.finishFailedCondition]

/-- A failed condition where the read would have raised an outcome. -/
theorem exec_of_fails_of_raises {i : Instr} {s : State} {t : Fin 15} {f : Fault}
    (hd : destination i.instrSet i.rt = some t) (hp : s.conditionPasses i = false)
    (hr : readID_DFR0 s.cfg s.ctx t = .raises f) :
    exec i s = if Config.raisesOnFailedCondition s.cfg f = true then .fault f else .next s := by
  rw [exec_of_fails hd hp, hr, State.finishFailedCondition, takeException]

/-- Settles O27: `Config.raisesOnFailedCondition` at each of the three outcomes, which are the same whatever the
destination. -/
theorem failedConditionIsNoOperation : Obligations.FailedConditionIsNoOperation := by
  intro i s hw hp
  obtain ⟨t, -, hd⟩ := wellFormed_destination i hw
  refine ⟨exec_of_fails_of_allowed hd hp, fun ha => ?_, fun r => ?_⟩
  · obtain ⟨f, hr, -⟩ := readID_DFR0_of_not_allowed t ha
    exact ⟨f, readID_DFR0_raises_any hr⟩
  · have answers {f : Fault} (hr : readID_DFR0 s.cfg s.ctx r = .raises f) :
        exec i s = if Config.raisesOnFailedCondition s.cfg f = true then .fault f else .next s :=
      exec_of_fails_of_raises hd hp (readID_DFR0_raises_any hr t)
    exact ⟨answers, fun _ _ => answers, fun _ => answers⟩

/-- Settles O34: the outcome raised does not depend on the value of ID_DFR0, nor does whether the read is allowed,
whether the condition passes, or what the implementation raises on a failed condition. -/
theorem forbiddenReadLearnsNothing : Obligations.ForbiddenReadLearnsNothing := by
  intro i s v hforbidden
  cases hd : destination i.instrSet i.rt with
  | none => simp [exec_eq_readUnder, hd, State.readUnder, mapNext]
  | some t =>
    have hp' : (s.withIdDfr0 v).conditionPasses i = s.conditionPasses i := conditionPasses_withIdDfr0 s v i
    cases ha : readAllowed s.cfg s.ctx with
    | true =>
      have hp : s.conditionPasses i = false := hforbidden.resolve_left (by simp [ha])
      rw [exec_of_fails_of_allowed hd (hp'.trans hp) ha, exec_of_fails_of_allowed hd hp ha, mapNext]
    | false =>
      obtain ⟨f, hr, -⟩ := readID_DFR0_of_not_allowed t ha
      have hr' : readID_DFR0 (s.withIdDfr0 v).cfg (s.withIdDfr0 v).ctx t = .raises f :=
        readID_DFR0_raises_withValue hr v
      cases hp : s.conditionPasses i with
      | true => rw [exec_of_passes_of_raises hd (hp'.trans hp) hr', exec_of_passes_of_raises hd hp hr, mapNext]
      | false =>
        have hraises :
            Config.raisesOnFailedCondition (s.withIdDfr0 v).cfg f = Config.raisesOnFailedCondition s.cfg f := by
          cases f <;> rfl
        rw [exec_of_fails_of_raises hd (hp'.trans hp) hr', exec_of_fails_of_raises hd hp hr, hraises]
        split <;> rfl

end Sys2Proof.Machine
end

section
/-! PROOFS. What the fields software reads say of an admitted implementation (40_mrc_id_dfr0.md R66, 60_exceptions.md
R79). -/

namespace Sys2Proof.Machine

namespace IdDfr0

/-- In an Armv8-A implementation the PerfMon test for PMUv3 tells exactly whether FEAT_PMUv3 is there (R19, R22; GK7). -/
theorem alternativeScheme_perfMon_iff {c : Config} {v : Word} (hA : c.ARMV8A = true) (hv : Permitted c v = true) :
    alternativeScheme (PerfMon v) 0b0011#4 = true ↔ c.FEAT_PMUv3 = true := by
  constructor
  · obtain ⟨hpmuV3, -⟩ := versionTestsReportOnlyImplementedFeatures c v hv
    exact hpmuV3
  · intro hb
    obtain ⟨h3, h9, -⟩ := (perfMonValuesLeftByVersion c v hA hv).2 hb
    have h15 : PerfMon v ≠ 0b1111#4 := by
      intro h
      rw [h] at h9
      exact absurd h9 (by decide)
    simp [alternativeScheme, h15, h3]

end IdDfr0

/-- Settles O33: the destination holds ID_DFR0 whole, and the fields of a permitted value are true of the
implementation. -/
theorem softwareLearnsTheImplementedFeatures : Obligations.SoftwareLearnsTheImplementedFeatures := by
  intro i s t hinv hw ht hp ha
  have hadmitted : IdDfr0.admitted s.cfg = true := (Bool.and_eq_true_iff.1 hinv).1
  obtain ⟨hA, hv⟩ := (IdDfr0.admitted_iff s.cfg).1 hadmitted
  obtain ⟨-, htraceFilt, -, -, hzero, -⟩ := IdDfr0.permitted_groups hv
  obtain ⟨htrf, -⟩ := of_decide_eq_true htraceFilt
  obtain ⟨hmProfDbg, hmMapDbg⟩ := of_decide_eq_true hzero
  obtain ⟨hcopDbg, -⟩ := IdDfr0.copDbgValuesLeftByVersion s.cfg _ hA hv
  refine ⟨_, exec_of_passes_of_allowed (destination_of_wellFormed i t hw ht) hp ha, ?_⟩
  rw [readReg_writeReg_same]
  exact ⟨htrf, IdDfr0.alternativeScheme_perfMon_iff hA hv, decide_eq_true hcopDbg, hmProfDbg hA, hmMapDbg hA⟩

end Sys2Proof.Machine
end

section
/-! PROOFS. When each of the three outcomes is raised, and that there is no other (60_exceptions.md R70 to R73, R76, R77). -/

namespace Sys2Proof.Machine

/-! ### The access rule, outcome by outcome -/

/-- When the AArch64 regime traps, as R71 lists it. -/
theorem a64Trap_iff_controls (cfg : Config) (ctx : Context) :
    a64Trap cfg ctx = true ↔
      ctx.EL2Enabled = true ∧ cfg.FEAT_AA64EL2 = true ∧ ctx.EL2UsingAArch32 = false ∧
        (ctx.HSTR_EL2_T0 = 1#1 ∨ ctx.HCR_EL2_TID3 = 1#1) := by
  simp only [a64Trap_iff, ← and_or_left]

/-- When the AArch32 regime traps, as R72 lists it. -/
theorem a32Trap_iff_controls (cfg : Config) (ctx : Context) :
    a32Trap cfg ctx = true ↔
      ctx.EL2Enabled = true ∧ cfg.FEAT_AA32EL2 = true ∧ ctx.EL2UsingAArch32 = true ∧
        (ctx.HSTR_T0 = 1#1 ∨ ctx.HCR_TID3 = 1#1) := by
  simp only [a32Trap_iff, ← and_or_left]

/-- The two regimes never trap at once: EL2 uses one of them. -/
theorem a64Trap_of_a32Trap {cfg : Config} {ctx : Context} (h : a32Trap cfg ctx = true) : a64Trap cfg ctx = false := by
  obtain ⟨-, -, hu, -⟩ := (a32Trap_iff_controls cfg ctx).1 h
  exact a64Trap_of_usingAArch32 hu

theorem readID_DFR0_raises_undefined_iff {cfg : Config} {ctx : Context} {t : Fin 15} :
    readID_DFR0 cfg ctx t = .raises .undefined ↔
      cfg.FEAT_AA32EL1 = false ∨ (cfg.FEAT_AA32EL1 = true ∧ ctx.EL = .EL0) := by
  cases hf : cfg.FEAT_AA32EL1 <;> simp [readID_DFR0_raises_iff, hf]

theorem readID_DFR0_raises_trapToAArch64_iff {cfg : Config} {ctx : Context} {t : Fin 15} {el : ExceptionLevel}
    {n : Nat} :
    readID_DFR0 cfg ctx t = .raises (.trapToAArch64 el n) ↔
      cfg.FEAT_AA32EL1 = true ∧ ctx.EL = .EL1 ∧ a64Trap cfg ctx = true ∧ el = .EL2 ∧ n = trapCode := by
  simp [readID_DFR0_raises_iff]

theorem readID_DFR0_raises_hypTrap_iff {cfg : Config} {ctx : Context} {t : Fin 15} {n : Nat} :
    readID_DFR0 cfg ctx t = .raises (.hypTrap n) ↔
      cfg.FEAT_AA32EL1 = true ∧ ctx.EL = .EL1 ∧ a32Trap cfg ctx = true ∧ n = trapCode := by
  have hfirst : a64Trap cfg ctx = false ∧ a32Trap cfg ctx = true ↔ a32Trap cfg ctx = true :=
    and_iff_right_of_imp a64Trap_of_a32Trap
  simp [readID_DFR0_raises_iff, ← and_assoc, hfirst]

/-! ### The executed read, outcome by outcome -/

/-- Settles O18: the first two rows of the decision table. -/
theorem undefinedExactlyWhenAbsentOrEL0 : Obligations.UndefinedExactlyWhenAbsentOrEL0 := by
  intro i s hw hp
  obtain ⟨t, -, hd⟩ := wellFormed_destination i hw
  rw [exec_fault_iff_of_passes hd hp, readID_DFR0_raises_undefined_iff]

/-- Settles O19: at EL1 the AArch64 regime's trap condition, control by control. -/
theorem trapToAArch64EL2ExactlyWhen : Obligations.TrapToAArch64EL2ExactlyWhen := by
  intro i s hw hp
  obtain ⟨t, -, hd⟩ := wellFormed_destination i hw
  rw [exec_fault_iff_of_passes hd hp, readID_DFR0_raises_trapToAArch64_iff, a64Trap_iff_controls]
  simp [trapCode]

/-- Settles O20: at EL1 the AArch32 regime's trap condition, control by control. -/
theorem hypTrapExactlyWhen : Obligations.HypTrapExactlyWhen := by
  intro i s hw hp
  obtain ⟨t, -, hd⟩ := wellFormed_destination i hw
  rw [exec_fault_iff_of_passes hd hp, readID_DFR0_raises_hypTrap_iff, a32Trap_iff_controls]
  simp [trapCode]

/-! ### Any instruction, its condition passed or not -/

/-- Settles O23: whatever faults raises an outcome of the access rule. -/
theorem faultsAreTheThreeOutcomes : Obligations.FaultsAreTheThreeOutcomes := by
  intro i s f h
  obtain ⟨t, -, hr⟩ := exec_fault h
  obtain ⟨-, rfl⟩ | ⟨-, -, ⟨-, rfl⟩ | ⟨-, -, rfl⟩⟩ := readID_DFR0_raises_iff.1 hr
  · exact .inl rfl
  · exact .inr (.inl rfl)
  · exact .inr (.inr rfl)

/-- Settles O22: the criteria of R71 and R72 from right to left, and, for every instruction that faults, what the access
rule says of a trap. -/
theorem onlyEL1ReadsTrapToEL2 : Obligations.OnlyEL1ReadsTrapToEL2 := by
  refine ⟨fun i s hw hp hf hel he => ⟨fun h64 hu hb => ?_, fun h32 hu hb => ?_⟩, fun i s hw hp hel => ?_,
    fun i s => ⟨fun el n h => ?_, fun n h => ?_⟩⟩
  · exact (trapToAArch64EL2ExactlyWhen i s hw hp).2 ⟨hf, hel, he, h64, hu, hb⟩
  · exact (hypTrapExactlyWhen i s hw hp).2 ⟨hf, hel, he, h32, hu, hb⟩
  · obtain ⟨t, -, hd⟩ := wellFormed_destination i hw
    exact exec_of_passes_of_raises hd hp (readID_DFR0_EL0 s.cfg t hel)
  · obtain ⟨t, -, hr⟩ := exec_fault h
    obtain ⟨-, hel, htrap, htarget, -⟩ := readID_DFR0_raises_trapToAArch64_iff.1 hr
    obtain ⟨he, -⟩ := (a64Trap_iff_controls s.cfg s.ctx).1 htrap
    exact ⟨htarget, hel, he⟩
  · obtain ⟨t, -, hr⟩ := exec_fault h
    obtain ⟨-, hel, htrap, -⟩ := readID_DFR0_raises_hypTrap_iff.1 hr
    obtain ⟨he, -⟩ := (a32Trap_iff_controls s.cfg s.ctx).1 htrap
    exact ⟨hel, he⟩

/-! ### EL0 -/

/-- At EL0 no read is allowed (R77). -/
theorem readAllowed_EL0 (cfg : Config) {ctx : Context} (hel : ctx.EL = .EL0) : readAllowed cfg ctx = false := by
  simp [readAllowed, hel]

/-- Settles O40: a step that completes executed a read whose condition failed, since at EL0 none is allowed, and moving
past it writes no register. -/
theorem noRegisterIsWrittenAtEL0 : Obligations.NoRegisterIsWrittenAtEL0 := by
  intro s s' hel h
  obtain ⟨-, w, i, s1, -, -, hexec, rfl⟩ := step_next h
  obtain ⟨-, rfl⟩ | ⟨-, hallowed, -⟩ := exec_next hexec
  · exact advance_x s1
  · rw [readAllowed_EL0 s.cfg hel] at hallowed
    cases hallowed

end Sys2Proof.Machine
end

section
/-! PROOFS. Where a step completes (70_reset_and_hazards.md R82), and the state after reset (R80). -/

namespace Sys2Proof.Machine

/-! ### Completion -/

/-- Where the read is allowed, an instruction with a destination completes, whether its condition passes or fails. -/
theorem exec_completes_of_allowed {i : Instr} {s : State} {t : Fin 15} (hd : destination i.instrSet i.rt = some t)
    (ha : readAllowed s.cfg s.ctx = true) : Completes (exec i s) := by
  cases hp : s.conditionPasses i with
  | true => exact ⟨s.writeReg t s.cfg.ID_DFR0, exec_of_passes_of_allowed hd hp ha⟩
  | false => exact ⟨s, exec_of_fails_of_allowed hd hp ha⟩

/-- An outcome that completes still does with its next state changed. -/
theorem completes_mapNext {o : Host.Outcome State Fault Refusal} (f : State → State) (h : Completes o) :
    Completes (mapNext f o) := by
  obtain ⟨s', rfl⟩ := h
  exact ⟨f s', rfl⟩

/-- A step completes where its word decodes and the read is allowed: a decoded instruction has a destination. -/
theorem step_completes_of_allowed {s : State} {w : Word} {i : Instr} (hadm : IdDfr0.admitted s.cfg = true)
    (hf : s.fetch = some w) (hdec : decode s.iset w = .ok i) (ha : readAllowed s.cfg s.ctx = true) :
    Completes (step s) := by
  obtain ⟨-, hw, -⟩ := decode_eq_ok_iff.1 hdec
  obtain ⟨t, -, hd⟩ := wellFormed_destination i hw
  rw [step_of_decode_ok hadm hf hdec]
  exact completes_mapNext State.advance (exec_completes_of_allowed hd ha)

/-- Settles O36: `step_completes_of_allowed` at the state with the other registers, whose configuration, context,
instruction set and fetched word are those of the first. -/
theorem stepCompletesWhereReadIsAllowed : Obligations.StepCompletesWhereReadIsAllowed := by
  intro s w i x hinv hf hdec ha
  obtain ⟨hadm, -⟩ := Bool.and_eq_true_iff.1 hinv
  exact step_completes_of_allowed (s := { s with x := x }) hadm hf hdec ha

/-! ### Reset -/

/-- After reset every register is 0 (log entry 3). -/
@[simp] theorem readReg_reset (r : Fin 15) : State.reset.readReg r = 0#32 := by
  simp [State.readReg, State.reset]

/-- Settles O43: every field is the one `State.reset` writes out, and the value of ID_DFR0 is that of CFG_A (log
entry 2). -/
theorem resetState : Obligations.ResetState :=
  ⟨rfl, rfl, rfl, rfl, rfl, rfl, rfl, rfl, rfl, rfl, rfl, rfl, rfl, rfl, readReg_reset⟩

end Sys2Proof.Machine
end

section
/-! PROOFS. The sample words (95_test_vectors.md section 2.5), and a decoded step written out (92_eei_decisions.md D8). -/

/-! ### Sample words -/

namespace Sys2Proof

/-- Settles O4: by `decode_eq_ok_iff` each word need only be the encoding of the well-formed read beside it. -/
theorem sampleWordsDecode : Obligations.SampleWordsDecode := by
  refine ⟨?_, ?_, ?_, ?_, ?_, ?_⟩ <;> exact decode_eq_ok_iff.2 (by decide)

end Sys2Proof

/-! ### A decoded step -/

namespace Sys2Proof.Machine

/-- Moving past an instruction, with the two instruction sets told apart by a test in place of a match. -/
theorem advance_eq_ite (s : State) : s.advance = { s with
    pc := s.pc + 4#32, itBlock := if s.iset = .t32 then s.itBlock.tail else s.itBlock } := by
  cases hset : s.iset with
  | a32 => simp [State.advance, hset]
  | t32 => simp [State.advance, hset]

/-- Settles O35: the state the statement writes out after the instruction is `State.advance` of it. -/
theorem stepRunsTheDecodedInstruction : Obligations.StepRunsTheDecodedInstruction := by
  intro s w i hadm hf hdec
  rw [step_of_decode_ok hadm hf hdec, funext advance_eq_ite]

end Sys2Proof.Machine
end
